-- ==== Sys2Proof/Word.lean ====
section
/-! DEFINITION. The word types of the block and the plain byte lists the formats are made of. -/

namespace Sys2Proof

/-- One byte: a character, a power, a host datum (30_encoding.md R90). -/
abbrev Byte := BitVec 8

/-- A 32-bit register or hash word (00_scope.md R11 item 3). -/
abbrev Word32 := BitVec 32

/-- A number of the 9-bit register-number space (20_memory.md R74). -/
abbrev RegNum := BitVec 9

/-- The operation-select word `OPSEL = PHASE ∥ MTYPE` (30_encoding.md R105). -/
abbrev OpSel := BitVec 7

/-- The host access word `HACC = we ∥ addr ∥ wdata` (30_encoding.md R106). -/
abbrev Hacc := BitVec 18

end Sys2Proof
end

