-- ==== Sys2Proof/Syntax.lean ====
section
/-! DEFINITION. The operations of the block, one constructor per row of spec/opcode_table.json (30_encoding.md
R107), and the three kinds of word a row can have. Bits that a row ignores are operands of the constructor, so that
no bit of a word is lost by decoding (log 4). -/

namespace Sys2Proof

/-- One operation. -/
inductive Instr where
  /-- NORM, `OPSEL = 0001mmm` (41_normalizer.md R160). -/
  | norm (m : BitVec 3)
  /-- CLASS, `OPSEL = 0010mmm` (43_packer.md R214). -/
  | classify (m : BitVec 3)
  /-- HASH, `OPSEL = 0011101` (42_hasher.md R197). -/
  | hash
  /-- FIELD.T1, `OPSEL = 0100001` (43_packer.md R220). -/
  | fieldT1
  /-- FIELD.T2S1, `OPSEL = 0100010` (43_packer.md R224). -/
  | fieldT2S1
  /-- FIELD.T2S2, `OPSEL = 0100011` (43_packer.md R226). -/
  | fieldT2S2
  /-- FIELD.T2P, `OPSEL = 0100100` (43_packer.md R229). -/
  | fieldT2P
  /-- FIELD.T3, `OPSEL = 0100101` (43_packer.md R233). -/
  | fieldT3
  /-- PACKB, `OPSEL = 0101mmm` (43_packer.md R240). -/
  | packb (m : BitVec 3)
  /-- CONV, `OPSEL = 0110mmm` (44_convolutional.md R262). -/
  | conv (m : BitVec 3)
  /-- ILV, `OPSEL = 0111mmm` (45_interleaver.md R281). -/
  | ilv (m : BitVec 3)
  /-- MERGE, `OPSEL = 1000mmm` (46_sync_merger.md R292). -/
  | merge (m : BitVec 3)
  /-- WR.CALL_IN, `HACC = 1 00000iiii dddddddd` (40_encode_sequence.md R135). -/
  | wrCallIn (i : BitVec 4) (v : Byte)
  /-- WR.LOC_IN, `HACC = 1 000010iii dddddddd` (40_encode_sequence.md R135). -/
  | wrLocIn (i : BitVec 3) (v : Byte)
  /-- WR.PWR_IN, `HACC = 1 000011000 dddddddd` (40_encode_sequence.md R135). -/
  | wrPwrIn (v : Byte)
  /-- START, `HACC = 1 000011001 xxxxxxx1` (40_encode_sequence.md R137). -/
  | start (x : BitVec 7)
  /-- WR.CTRL.NOP, `HACC = 1 000011001 xxxxxxx0` (40_encode_sequence.md R135). -/
  | wrCtrlNop (x : BitVec 7)
  /-- RD.CALL_IN, `HACC = 0 00000iiii xxxxxxxx` (40_encode_sequence.md R136). -/
  | rdCallIn (i : BitVec 4) (x : Byte)
  /-- RD.LOC_IN, `HACC = 0 000010iii xxxxxxxx` (40_encode_sequence.md R136). -/
  | rdLocIn (i : BitVec 3) (x : Byte)
  /-- RD.PWR_IN, `HACC = 0 000011000 xxxxxxxx` (40_encode_sequence.md R136). -/
  | rdPwrIn (x : Byte)
  /-- RD.CTRL, `HACC = 0 000011001 xxxxxxxx` (40_encode_sequence.md R136). -/
  | rdCtrl (x : Byte)
  /-- RD.STATUS, `HACC = 0 000011010 xxxxxxxx` (40_encode_sequence.md R136). -/
  | rdStatus (x : Byte)
  /-- RD.SYM, `HACC = 0 1iiiiiiii xxxxxxxx` (40_encode_sequence.md R138). -/
  | rdSym (i : BitVec 8) (x : Byte)
  /-- WR.IGNORED, a write to `STATUS`, to `SYM` or to a reserved number (40_encode_sequence.md R135). -/
  | wrIgnored (a : RegNum) (x : Byte)
  /-- RD.RESERVED, a read of a reserved number (40_encode_sequence.md R136). -/
  | rdReserved (a : RegNum) (x : Byte)
  /-- RESET, the reset input: no word of either format (70_reset_and_hazards.md R330). -/
  | reset
deriving DecidableEq, Repr

/-- What selects an operation: the reset input, the sequencer's select word, or a host access word
(30_encoding.md R105, R106). -/
inductive OpWord where
  /-- Format "none": the reset input. -/
  | resetInput
  /-- Format S. -/
  | select (w : OpSel)
  /-- Format H. -/
  | access (w : Hacc)
deriving DecidableEq, Repr

end Sys2Proof
end

