-- ==== Sys2Proof/WellFormed.lean ====
section
/-! DEFINITION. Which operation terms stand for a word of the table: the constraint column of 30_encoding.md R107
and the reserved `MTYPE` codes of R112. -/

namespace Sys2Proof

/-- `MTYPE` codes 6 and 7 are reserved (10_state.md R32, 30_encoding.md R112). -/
def validMtype (m : BitVec 3) : Bool := decide (m.toNat ≤ 5)

/-- Register numbers without a register (20_memory.md R74, R75). -/
def isReservedNum (a : RegNum) : Bool :=
  decide ((0x00C ≤ a.toNat ∧ a.toNat ≤ 0x00F) ∨ (0x016 ≤ a.toNat ∧ a.toNat ≤ 0x017) ∨
    (0x01B ≤ a.toNat ∧ a.toNat ≤ 0x0FF) ∨ 0x1A2 ≤ a.toNat)

/-- Register numbers whose writes are ignored: `STATUS`, `SYM[i]` and the reserved ones (30_encoding.md R107). -/
def isIgnoredNum (a : RegNum) : Bool :=
  decide (a.toNat = 0x01A ∨ (0x100 ≤ a.toNat ∧ a.toNat ≤ 0x1A1)) || isReservedNum a

/-- The check on an operation term. -/
def Instr.wellFormed : Instr → Bool
  | .norm m => validMtype m
  | .classify m => validMtype m
  | .hash => true
  | .fieldT1 => true
  | .fieldT2S1 => true
  | .fieldT2S2 => true
  | .fieldT2P => true
  | .fieldT3 => true
  | .packb m => validMtype m
  | .conv m => validMtype m
  | .ilv m => validMtype m
  | .merge m => validMtype m
  | .wrCallIn i _ => decide (i.toNat ≤ 11)
  | .wrLocIn i _ => decide (i.toNat ≤ 5)
  | .wrPwrIn _ => true
  | .start _ => true
  | .wrCtrlNop _ => true
  | .rdCallIn i _ => decide (i.toNat ≤ 11)
  | .rdLocIn i _ => decide (i.toNat ≤ 5)
  | .rdPwrIn _ => true
  | .rdCtrl _ => true
  | .rdStatus _ => true
  | .rdSym i _ => decide (i.toNat ≤ 161)
  | .wrIgnored a _ => isIgnoredNum a
  | .rdReserved a _ => isReservedNum a
  | .reset => true

end Sys2Proof
end

