-- ==== Sys2Proof/Decode.lean ====
section
/-! DEFINITION. The decoder and the encoder of 30_encoding.md R105 to R107, and the table's rows as patterns. The
decoder is total: what it does not read as an operation it rejects by name. -/

namespace Sys2Proof

/-- Why a word selects no operation. -/
inductive DecodeError where
  /-- `PHASE = IDLE` selects no operation (30_encoding.md R107). -/
  | idlePhase
  /-- `PHASE` codes 9 to 15 (30_encoding.md R112). -/
  | reservedPhase
  /-- `MTYPE` codes 6 and 7 (30_encoding.md R112; log 5). -/
  | reservedMtype
  /-- `0011mmm` with `MTYPE ≠ T3`, `0100mmm` with `MTYPE = NONE` (30_encoding.md R112). -/
  | reservedSelect
  /-- A bit above the word's width is set (log 3). -/
  | strayBits
  /-- Neither no byte, one byte nor three (log 3). -/
  | badLength
deriving DecidableEq, Repr

/-! ## Format S -/

/-- `OPSEL[6:3]`. -/
def phaseField (w : OpSel) : BitVec 4 := w.extractLsb' 3 4

/-- `OPSEL[2:0]`. -/
def mtypeField (w : OpSel) : BitVec 3 := w.extractLsb' 0 3

/-- The sequencer's operation for a select word (30_encoding.md R105, R107, R112). -/
def decodeSelect (w : OpSel) : Except DecodeError Instr :=
  let p := (phaseField w).toNat
  let m := mtypeField w
  if p = 0 then .error .idlePhase
  else if 9 ≤ p then .error .reservedPhase
  else if validMtype m = false then .error .reservedMtype
  else if p = 1 then .ok (.norm m)
  else if p = 2 then .ok (.classify m)
  else if p = 3 then (if m.toNat = 5 then .ok .hash else .error .reservedSelect)
  else if p = 4 then
    (if m.toNat = 1 then .ok .fieldT1
     else if m.toNat = 2 then .ok .fieldT2S1
     else if m.toNat = 3 then .ok .fieldT2S2
     else if m.toNat = 4 then .ok .fieldT2P
     else if m.toNat = 5 then .ok .fieldT3
     else .error .reservedSelect)
  else if p = 5 then .ok (.packb m)
  else if p = 6 then .ok (.conv m)
  else if p = 7 then .ok (.ilv m)
  else .ok (.merge m)

/-! ## Format H -/

/-- `HACC[17]`, 1 for a write. -/
def weField (w : Hacc) : Bool := w.getLsbD 17

/-- `HACC[16:8]`, the register number. -/
def addrField (w : Hacc) : RegNum := w.extractLsb' 8 9

/-- `HACC[7:0]`, the byte written, ignored for a read. -/
def wdataField (w : Hacc) : Byte := w.extractLsb' 0 8

/-- The host's write operation on number `a` with byte `v` (30_encoding.md R107). -/
def decodeWrite (a : RegNum) (v : Byte) : Instr :=
  if a.toNat ≤ 0x00B then .wrCallIn (a.extractLsb' 0 4) v
  else if 0x010 ≤ a.toNat ∧ a.toNat ≤ 0x015 then .wrLocIn (a.extractLsb' 0 3) v
  else if a.toNat = 0x018 then .wrPwrIn v
  else if a.toNat = 0x019 then
    (if v.getLsbD 0 then .start (v.extractLsb' 1 7) else .wrCtrlNop (v.extractLsb' 1 7))
  else .wrIgnored a v

/-- The host's read operation on number `a`; `x` are the ignored bits (30_encoding.md R107). -/
def decodeRead (a : RegNum) (x : Byte) : Instr :=
  if a.toNat ≤ 0x00B then .rdCallIn (a.extractLsb' 0 4) x
  else if 0x010 ≤ a.toNat ∧ a.toNat ≤ 0x015 then .rdLocIn (a.extractLsb' 0 3) x
  else if a.toNat = 0x018 then .rdPwrIn x
  else if a.toNat = 0x019 then .rdCtrl x
  else if a.toNat = 0x01A then .rdStatus x
  else if 0x100 ≤ a.toNat ∧ a.toNat ≤ 0x1A1 then .rdSym (a.extractLsb' 0 8) x
  else .rdReserved a x

/-- Every host access word is exactly one operation (30_encoding.md R107). -/
def decodeAccess (w : Hacc) : Instr :=
  if weField w then decodeWrite (addrField w) (wdataField w)
  else decodeRead (addrField w) (wdataField w)

/-! ## All words, and their bytes -/

/-- The operation an operation word selects. -/
def decodeWord : OpWord → Except DecodeError Instr
  | .resetInput => .ok .reset
  | .select w => decodeSelect w
  | .access w => .ok (decodeAccess w)

/-- An operation word from its bytes: no byte for the reset input, one for a select word, three (least significant
first) for an access word. The spec gives the words no bytes (R106: "how it travels on pins is `BUS`"; log 3). -/
def wordOfBytes : List Byte → Except DecodeError OpWord
  | [] => .ok .resetInput
  | [b] => if b.getLsbD 7 then .error .strayBits else .ok (.select (b.extractLsb' 0 7))
  | [b0, b1, b2] =>
    if (b2.extractLsb' 2 6).toNat = 0 then .ok (.access (b2.extractLsb' 0 2 ++ b1 ++ b0)) else .error .strayBits
  | _ => .error .badLength

/-- The decoder on bytes. -/
def decode (bs : List Byte) : Except DecodeError Instr :=
  match wordOfBytes bs with
  | .ok w => decodeWord w
  | .error e => .error e

/-! ## The encoder -/

/-- A host access word from its three fields (30_encoding.md R106). -/
def accessWord (we : Bool) (a : RegNum) (d : Byte) : Hacc := BitVec.ofBool we ++ a ++ d

/-- The word of an operation, row by row from 30_encoding.md R107. -/
def encodeWord : Instr → OpWord
  | .norm m => .select (0b0001#4 ++ m)
  | .classify m => .select (0b0010#4 ++ m)
  | .hash => .select 0b0011101#7
  | .fieldT1 => .select 0b0100001#7
  | .fieldT2S1 => .select 0b0100010#7
  | .fieldT2S2 => .select 0b0100011#7
  | .fieldT2P => .select 0b0100100#7
  | .fieldT3 => .select 0b0100101#7
  | .packb m => .select (0b0101#4 ++ m)
  | .conv m => .select (0b0110#4 ++ m)
  | .ilv m => .select (0b0111#4 ++ m)
  | .merge m => .select (0b1000#4 ++ m)
  | .wrCallIn i v => .access (accessWord true (0b00000#5 ++ i) v)
  | .wrLocIn i v => .access (accessWord true (0b000010#6 ++ i) v)
  | .wrPwrIn v => .access (accessWord true 0b000011000#9 v)
  | .start x => .access (accessWord true 0b000011001#9 (x ++ 1#1))
  | .wrCtrlNop x => .access (accessWord true 0b000011001#9 (x ++ 0#1))
  | .rdCallIn i x => .access (accessWord false (0b00000#5 ++ i) x)
  | .rdLocIn i x => .access (accessWord false (0b000010#6 ++ i) x)
  | .rdPwrIn x => .access (accessWord false 0b000011000#9 x)
  | .rdCtrl x => .access (accessWord false 0b000011001#9 x)
  | .rdStatus x => .access (accessWord false 0b000011010#9 x)
  | .rdSym i x => .access (accessWord false (1#1 ++ i) x)
  | .wrIgnored a x => .access (accessWord true a x)
  | .rdReserved a x => .access (accessWord false a x)
  | .reset => .resetInput

/-- The bytes of an operation word (log 3). -/
def bytesOfWord : OpWord → List Byte
  | .resetInput => []
  | .select w => [w.setWidth 8]
  | .access w => [w.extractLsb' 0 8, w.extractLsb' 8 8, (w.extractLsb' 16 2).setWidth 8]

/-- The encoder on bytes. -/
def encode (i : Instr) : List Byte := bytesOfWord (encodeWord i)

/-! ## The table as the spec numbers it -/

/-- The bytes of a table word of `nbits` bits (rounded up to whole bytes) whose bits are `w`: formats none, S
and H have 0, 7 and 18 bits. A `w` that does not fit is answered with bytes of no format. -/
def tableBytes (nbits w : Nat) : List Byte :=
  if nbits = 0 then []
  else if nbits ≤ 8 then
    (if w < 256 then [BitVec.ofNat 8 w] else [0, 0])
  else
    (if w < 2 ^ 24 then [BitVec.ofNat 8 w, BitVec.ofNat 8 (w / 2 ^ 8), BitVec.ofNat 8 (w / 2 ^ 16)] else [0, 0])

/-- The instruction the decoder reads from a table word. -/
def decodeTableWord (nbits w : Nat) : Option Instr :=
  match decode (tableBytes nbits w) with
  | .ok i => some i
  | .error _ => none

/-- A row of spec/opcode_table.json: the word's width and the bits its pattern fixes. -/
structure Row where
  width : Nat
  mask : Nat
  pattern : Nat
deriving DecidableEq, Repr

/-- The row of each operation (spec/opcode_table.json "mask" and "match"). -/
def rowOf : Instr → Row
  | .norm _ => ⟨7, 0x78, 0x08⟩
  | .classify _ => ⟨7, 0x78, 0x10⟩
  | .hash => ⟨7, 0x7F, 0x1D⟩
  | .fieldT1 => ⟨7, 0x7F, 0x21⟩
  | .fieldT2S1 => ⟨7, 0x7F, 0x22⟩
  | .fieldT2S2 => ⟨7, 0x7F, 0x23⟩
  | .fieldT2P => ⟨7, 0x7F, 0x24⟩
  | .fieldT3 => ⟨7, 0x7F, 0x25⟩
  | .packb _ => ⟨7, 0x78, 0x28⟩
  | .conv _ => ⟨7, 0x78, 0x30⟩
  | .ilv _ => ⟨7, 0x78, 0x38⟩
  | .merge _ => ⟨7, 0x78, 0x40⟩
  | .wrCallIn _ _ => ⟨18, 0x3F000, 0x20000⟩
  | .wrLocIn _ _ => ⟨18, 0x3F800, 0x21000⟩
  | .wrPwrIn _ => ⟨18, 0x3FF00, 0x21800⟩
  | .start _ => ⟨18, 0x3FF01, 0x21901⟩
  | .wrCtrlNop _ => ⟨18, 0x3FF01, 0x21900⟩
  | .rdCallIn _ _ => ⟨18, 0x3F000, 0x00000⟩
  | .rdLocIn _ _ => ⟨18, 0x3F800, 0x01000⟩
  | .rdPwrIn _ => ⟨18, 0x3FF00, 0x01800⟩
  | .rdCtrl _ => ⟨18, 0x3FF00, 0x01900⟩
  | .rdStatus _ => ⟨18, 0x3FF00, 0x01A00⟩
  | .rdSym _ _ => ⟨18, 0x30000, 0x10000⟩
  | .wrIgnored _ _ => ⟨18, 0x20000, 0x20000⟩
  | .rdReserved _ _ => ⟨18, 0x20000, 0x00000⟩
  | .reset => ⟨0, 0, 0⟩

/-- The width of an operation word (30_encoding.md R90). -/
def OpWord.width : OpWord → Nat
  | .resetInput => 0
  | .select _ => 7
  | .access _ => 18

/-- The bits of an operation word as a number. -/
def OpWord.bits : OpWord → Nat
  | .resetInput => 0
  | .select w => w.toNat
  | .access w => w.toNat

end Sys2Proof
end

