-- ==== Sys2Proof/Machine/Tables.lean ====
section
/-! DEFINITION. The constants of the block (10_state.md R46, 00_scope.md R7, R9) and the codes of its registers
(10_state.md R30, R32). None is state. -/

namespace Sys2Proof.Machine

/-! ## Characters (00_scope.md R9) -/

def chNul : Byte := 0x00#8
def chSpace : Byte := 0x20#8
def chSlash : Byte := 0x2F#8
def chZero : Byte := 0x30#8
def chLess : Byte := 0x3C#8
def chGreater : Byte := 0x3E#8
def chA : Byte := 0x41#8

/-! ## `PHASE` codes (10_state.md R30) -/

def phIdle : BitVec 4 := 0#4
def phNorm : BitVec 4 := 1#4
def phClass : BitVec 4 := 2#4
def phHash : BitVec 4 := 3#4
def phField : BitVec 4 := 4#4
def phPackb : BitVec 4 := 5#4
def phConv : BitVec 4 := 6#4
def phIlv : BitVec 4 := 7#4
def phMerge : BitVec 4 := 8#4

/-! ## `MTYPE` codes (10_state.md R32) -/

def mtNone : BitVec 3 := 0#3
def mtT1 : BitVec 3 := 1#3
def mtT2S1 : BitVec 3 := 2#3
def mtT2S2 : BitVec 3 := 3#3
def mtT2P : BitVec 3 := 4#3
def mtT3 : BitVec 3 := 5#3

/-- `ERRCODE` of `E_T3_NO_CLOSE` (60_exceptions.md R301). -/
def errT3NoClose : BitVec 4 := 1#4

/-! ## Constants of the stages -/

/-- `PWR_TABLE`, ascending (00_scope.md R7, 41_normalizer.md R167). -/
def pwrTable : List Int :=
  [-30, -27, -23, -20, -17, -13, -10, -7, -3, 0, 3, 7, 10, 13, 17, 20, 23, 27, 30, 33, 37, 40, 43, 47, 50, 53,
    57, 60]

/-- `FALLBACK = "AA00AA"` (41_normalizer.md R164). -/
def fallbackLoc : Vector Byte 6 := #v[0x41#8, 0x41#8, 0x30#8, 0x30#8, 0x41#8, 0x41#8]

/-- `HASH_INIT` (10_state.md R46). -/
def hashInit : Word32 := 0xdeadbeef#32

/-- `HASH_SEED` (10_state.md R46). -/
def hashSeed : Word32 := 146#32

/-- `POLY0`, for the even outputs (44_convolutional.md R260). -/
def poly0 : Word32 := 0xF2D05351#32

/-- `POLY1`, for the odd outputs (44_convolutional.md R260). -/
def poly1 : Word32 := 0xE4613C47#32

/-- The list of 46_sync_merger.md R291, eighteen a row. -/
def syncList : List Nat :=
  [1, 1, 0, 0, 0, 0, 0, 0, 1, 0, 0, 0, 1, 1, 1, 0, 0, 0] ++
  [1, 0, 0, 1, 0, 1, 1, 1, 1, 0, 0, 0, 0, 0, 0, 0, 1, 0] ++
  [0, 1, 0, 1, 0, 0, 0, 0, 0, 0, 1, 0, 1, 1, 0, 0, 1, 1] ++
  [0, 1, 0, 0, 0, 1, 1, 0, 1, 0, 0, 0, 0, 1, 1, 0, 1, 0] ++
  [1, 0, 1, 0, 1, 0, 0, 1, 0, 0, 1, 0, 1, 1, 0, 0, 0, 1] ++
  [1, 0, 1, 0, 1, 0, 0, 0, 1, 0, 0, 0, 0, 0, 1, 0, 0, 1] ++
  [0, 0, 1, 1, 1, 0, 1, 1, 0, 0, 1, 1, 0, 1, 0, 0, 0, 1] ++
  [1, 1, 0, 0, 0, 0, 0, 1, 0, 1, 0, 0, 1, 1, 0, 0, 0, 0] ++
  [0, 0, 0, 1, 1, 0, 1, 0, 1, 1, 0, 0, 0, 1, 1, 0, 0, 0]

/-- `SYNC[i]` (46_sync_merger.md R291). -/
def syncBit (i : Nat) : Bool := syncList.getD i 0 == 1

/-- `PERM[i]`, the position in `D` that receives `S[i]`, as 45_interleaver.md R283 prints it. The interleaver
computes it from `rev8` (`permComputed`); the table is here to compare. -/
def permTable : List Nat :=
  [0, 128, 64, 32, 160, 96, 16, 144, 80, 48, 112, 8, 136, 72, 40, 104] ++
  [24, 152, 88, 56, 120, 4, 132, 68, 36, 100, 20, 148, 84, 52, 116, 12] ++
  [140, 76, 44, 108, 28, 156, 92, 60, 124, 2, 130, 66, 34, 98, 18, 146] ++
  [82, 50, 114, 10, 138, 74, 42, 106, 26, 154, 90, 58, 122, 6, 134, 70] ++
  [38, 102, 22, 150, 86, 54, 118, 14, 142, 78, 46, 110, 30, 158, 94, 62] ++
  [126, 1, 129, 65, 33, 161, 97, 17, 145, 81, 49, 113, 9, 137, 73, 41] ++
  [105, 25, 153, 89, 57, 121, 5, 133, 69, 37, 101, 21, 149, 85, 53, 117] ++
  [13, 141, 77, 45, 109, 29, 157, 93, 61, 125, 3, 131, 67, 35, 99, 19] ++
  [147, 83, 51, 115, 11, 139, 75, 43, 107, 27, 155, 91, 59, 123, 7, 135] ++
  [71, 39, 103, 23, 151, 87, 55, 119, 15, 143, 79, 47, 111, 31, 159, 95] ++
  [63, 127]

/-- `INV[r]`, the index of the element of `S` that lands in `D[r]`, as 45_interleaver.md R283 prints it; here to
compare, as `permTable` is. -/
def invTable : List Nat :=
  [0, 81, 41, 122, 21, 102, 61, 142, 11, 92, 51, 132, 31, 112, 71, 152] ++
  [6, 87, 46, 127, 26, 107, 66, 147, 16, 97, 56, 137, 36, 117, 76, 157] ++
  [3, 84, 44, 125, 24, 105, 64, 145, 14, 95, 54, 135, 34, 115, 74, 155] ++
  [9, 90, 49, 130, 29, 110, 69, 150, 19, 100, 59, 140, 39, 120, 79, 160] ++
  [2, 83, 43, 124, 23, 104, 63, 144, 13, 94, 53, 134, 33, 114, 73, 154] ++
  [8, 89, 48, 129, 28, 109, 68, 149, 18, 99, 58, 139, 38, 119, 78, 159] ++
  [5, 86, 45, 126, 25, 106, 65, 146, 15, 96, 55, 136, 35, 116, 75, 156] ++
  [10, 91, 50, 131, 30, 111, 70, 151, 20, 101, 60, 141, 40, 121, 80, 161] ++
  [1, 82, 42, 123, 22, 103, 62, 143, 12, 93, 52, 133, 32, 113, 72, 153] ++
  [7, 88, 47, 128, 27, 108, 67, 148, 17, 98, 57, 138, 37, 118, 77, 158] ++
  [4, 85]

end Sys2Proof.Machine
end

