-- ==== Sys2Proof/Machine/Operands.lean ====
section
/-! DEFINITION. How operations read their operands: character classes (30_encoding.md R91), reads of the callsign
(43_packer.md R211), the searches for brackets and slashes, and the six-character fields of the packer
(43_packer.md R212 to R216, R223). -/

namespace Sys2Proof.Machine

/-! ## Characters (00_scope.md R12) -/

def isDigit (c : Byte) : Bool := decide (0x30 ≤ c.toNat ∧ c.toNat ≤ 0x39)

def isUpper (c : Byte) : Bool := decide (0x41 ≤ c.toNat ∧ c.toNat ≤ 0x5A)

def isLower (c : Byte) : Bool := decide (0x61 ≤ c.toNat ∧ c.toNat ≤ 0x7A)

def upcase (c : Byte) : Byte := if isLower c then c - 0x20#8 else c

def isBlank (c : Byte) : Bool := c == chSpace || c == chNul

/-- A byte as an unsigned integer. -/
def byteInt (c : Byte) : Int := (c.toNat : Int)

/-- `code(c)` (43_packer.md R212). -/
def charCode (c : Byte) : Int :=
  if isDigit c then byteInt c - 0x30
  else if isUpper c then byteInt c - 0x37
  else 36

/-! ## The callsign -/

/-- `ext(i)`: the callsign read past its end (43_packer.md R211). -/
def extChar (call : Vector Byte 12) (i : Nat) : Byte := call[i]?.getD chNul

/-- The least `i` in 0..11 with `CALL[i] = '/'` (43_packer.md R214). -/
def slashIndex (call : Vector Byte 12) : Option Nat := call.toList.findIdx? (· == chSlash)

/-- The least `i` in 1..11 with `CALL[i] = '>'` (43_packer.md R214, R232). -/
def closeIndex (call : Vector Byte 12) : Option Nat :=
  ((call.toList.drop 1).findIdx? (· == chGreater)).map (· + 1)

/-- `CALL[0] = '<'` (43_packer.md R214). -/
def opensBracket (call : Vector Byte 12) : Bool := call[0] == chLess

/-! ## Six-character fields -/

/-- The first six slots, `CALL[0..5]` (43_packer.md R220). -/
def firstSix (call : Vector Byte 12) : Vector Byte 6 := Vector.ofFn fun i => extChar call i.val

/-- `call28` (43_packer.md R213). -/
def call28 (s : Vector Byte 6) : Int :=
  ((((charCode s[0] * 36 + charCode s[1]) * 10 + charCode s[2]) * 27 + (charCode s[3] - 10)) * 27
    + (charCode s[4] - 10)) * 27 + (charCode s[5] - 10)

/-- `pad6` (43_packer.md R215): one shift right when the second character is a digit and the third a letter. -/
def pad6 (s : Vector Byte 6) : Vector Byte 6 :=
  if isDigit s[1] && isUpper s[2] then #v[chSpace, s[0], s[1], s[2], s[3], s[4]] else s

/-- One slot of `canon6` (43_packer.md R216). -/
def canonChar (c : Byte) : Byte :=
  if isDigit (upcase c) || isUpper (upcase c) then upcase c else chSpace

/-- `canon6` (43_packer.md R216). -/
def canon6 (s : Vector Byte 6) : Vector Byte 6 := Vector.ofFn fun i => canonChar s[i]

/-- The base call before the slash, for the suffix forms (43_packer.md R223). -/
def baseSuffix (call : Vector Byte 12) (sp : Nat) : Vector Byte 6 :=
  pad6 (canon6 (Vector.ofFn fun i => if i.val < sp then extChar call i.val else chSpace))

/-- The base call after the slash, for the form with the text in front (43_packer.md R223). -/
def basePrefix (call : Vector Byte 12) (sp : Nat) : Vector Byte 6 :=
  pad6 (canon6 (Vector.ofFn fun i => extChar call (sp + 1 + i.val)))

/-- The offset of a single suffix character (43_packer.md R224). -/
def suffixOffset (c : Byte) : Int :=
  if isDigit c then byteInt c - 0x30
  else if isUpper c then byteInt c - 0x37
  else 38

/-- One of the at most three characters before the slash (43_packer.md R229). -/
def prefixChar (call : Vector Byte 12) (sp i : Nat) : Byte :=
  if i < sp ∧ i < 3 then extChar call i else chSpace

/-- The three characters of the front text after its one right shift (43_packer.md R229). -/
def prefixChars (call : Vector Byte 12) (sp : Nat) : Byte × Byte × Byte :=
  if isBlank (prefixChar call sp 2) then (chSpace, prefixChar call sp 0, prefixChar call sp 1)
  else (prefixChar call sp 0, prefixChar call sp 1, prefixChar call sp 2)

/-- The fold `p` over the three characters (43_packer.md R229). -/
def prefixFold (call : Vector Byte 12) (sp : Nat) : Int :=
  let (a, b, c) := prefixChars call sp
  (charCode a * 37 + charCode b) * 37 + charCode c

/-- The locator rotated left by one character (43_packer.md R233). -/
def rotateLoc (loc : Vector Byte 6) : Vector Byte 6 := #v[loc[1], loc[2], loc[3], loc[4], loc[5], loc[0]]

end Sys2Proof.Machine
end

