-- ==== Sys2Proof/Config.lean ====
section
/-! DEFINITION. The free values: what the spec leaves without a value although the machine goes on. Each is an
opaque constant applied to the counter `State.freeCount`, so that no proof can see what it is. The open parameters
`BUS`, `T_phase` and `RST` (00_scope.md R8) have no effect on a value and stand in no definition (log 14). -/

namespace Sys2Proof.Config

/-- The byte a read of `SYM[i]` returns while `DONE = 0`: "an unspecified byte" (40_encode_sequence.md R138,
70_reset_and_hazards.md R338; log 10). -/
opaque freeByte : Nat → Byte

/-- What HASH leaves in a 32-bit accumulator when the callsign has no closing bracket (42_hasher.md R197 defines
the key only where one exists; log 11). -/
opaque freeWord : Nat → Word32

/-- The slash index `sp` of a FIELD.T2 operation on a callsign without a slash (43_packer.md R214 defines `sp` only
where one exists; log 12). -/
opaque freeIndex : Nat → Nat

end Sys2Proof.Config
end

