-- ==== Sys2Proof/Machine/State.lean ====
section
/-! DEFINITION. The state of the block (10_state.md R21), its two reasons to stop, and the state after reset
(10_state.md R50). -/

namespace Sys2Proof.Machine

/-- One entry of the total order of atomic steps (20_memory.md R72; log 1). -/
inductive Turn where
  /-- One host access, its word (30_encoding.md R106). -/
  | host (w : Hacc)
  /-- The sequencer's next step, if it has one (40_encode_sequence.md R131). -/
  | seq
  /-- The reset input is asserted (70_reset_and_hazards.md R330). -/
  | reset
deriving DecidableEq, Repr

/-- Everything 10_state.md R21 gives the block, then the model's own three fields. -/
structure State where
  /-- `CALL_IN[0..11]` (R22). -/
  callIn : Vector Byte 12
  /-- `LOC_IN[0..5]` (R23). -/
  locIn : Vector Byte 6
  /-- `PWR_IN` (R24). -/
  pwrIn : Byte
  /-- `CALL[0..11]`, context (R25). -/
  call : Vector Byte 12
  /-- `LOC[0..5]`, context (R25). -/
  loc : Vector Byte 6
  /-- `PWR`, context (R25). -/
  pwr : Byte
  /-- `PHASE` (R30). -/
  phase : BitVec 4
  /-- `MTYPE` (R32). -/
  mtype : BitVec 3
  /-- `DONE` (R33). -/
  done : Bool
  /-- `ERR` (R33). -/
  err : Bool
  /-- `ERRCODE` (R37). -/
  errcode : BitVec 4
  /-- `HA` (R40). -/
  ha : Word32
  /-- `HB` (R40). -/
  hb : Word32
  /-- `HC` (R40). -/
  hc : Word32
  /-- `HASH15` (R40). -/
  hash15 : BitVec 15
  /-- `N` (R41). -/
  nReg : BitVec 28
  /-- `M` (R41). -/
  mReg : BitVec 22
  /-- `PKT[0..10]` (R42). -/
  pkt : Vector Byte 11
  /-- `REG0` (R43). -/
  reg0 : Word32
  /-- `REG1` (R43). -/
  reg1 : Word32
  /-- `S[0..161]` (R44). -/
  sBits : Vector Bool 162
  /-- `D[0..161]` (R44). -/
  dBits : Vector Bool 162
  /-- `SYM[0..161]` (R45). -/
  sym : Vector (BitVec 2) 162
  /-- The model's: the turns still to come, the next one first (log 1). -/
  agenda : List Turn
  /-- The model's: the byte the host's latest read returned (log 8). -/
  rdata : Byte
  /-- The model's: how many free values have been used (log 9). -/
  freeCount : Nat
deriving DecidableEq, Repr

/-- Why the machine stops. -/
inductive Fault where
  /-- Raised by `step` when the sequencer's turn comes with a reserved `OPSEL`: "A model has no step for them (the
  sequencer is stuck)" (30_encoding.md R112). Safe: the model stops where the spec defines no step. -/
  | stuckSelect (w : OpSel)
deriving DecidableEq, Repr

/-- Why an operation has no meaning. -/
inductive Refusal where
  /-- Raised by an arm of `exec` that has no meaning yet; no arm is left. Safe: the model stops. -/
  | notModelled (mnemonic : String)
deriving DecidableEq, Repr

/-- The state after reset: the values of 10_state.md R50, and zero for every register R50 gives "no value"
(log 6). No turn is pending (log 2). -/
def State.reset : State where
  callIn := Vector.replicate 12 0#8
  locIn := Vector.replicate 6 0#8
  pwrIn := 0#8
  call := Vector.replicate 12 0#8
  loc := Vector.replicate 6 0#8
  pwr := 0#8
  phase := phIdle
  mtype := mtNone
  done := false
  err := false
  errcode := 0#4
  ha := 0#32
  hb := 0#32
  hc := 0#32
  hash15 := 0#15
  nReg := 0#28
  mReg := 0#22
  pkt := Vector.replicate 11 0#8
  reg0 := 0#32
  reg1 := 0#32
  sBits := Vector.replicate 162 false
  dBits := Vector.replicate 162 false
  sym := Vector.replicate 162 0#2
  agenda := []
  rdata := 0#8
  freeCount := 0

end Sys2Proof.Machine
end

