-- ==== Sys2Proof/Machine/Flags.lean ====
section
/-! DEFINITION. The status flags (10_state.md R33, R36, R37): the derived `BUSY`, the byte a read of `STATUS`
returns, and the updates of the flags. -/

namespace Sys2Proof.Machine

/-- `BUSY = 1` exactly when `PHASE ≠ IDLE` (10_state.md R33). -/
def State.busy (s : State) : Bool := s.phase != phIdle

/-- The byte of `STATUS`: `ERRCODE ∥ 0 ∥ ERR ∥ DONE ∥ BUSY` (10_state.md R36). -/
def State.status (s : State) : Byte :=
  s.errcode ++ 0#1 ++ BitVec.ofBool s.err ++ BitVec.ofBool s.done ++ BitVec.ofBool s.busy

/-- START's writes to the flags (40_encode_sequence.md R137). It is also the only way back from the error besides
reset: "There is no return-from-error operation" (60_exceptions.md R305). -/
def State.clearFlags (s : State) : State := { s with done := false, err := false, errcode := 0#4 }

/-- The error's writes to the flags (60_exceptions.md R303). -/
def State.setError (s : State) : State := { s with err := true, errcode := errT3NoClose }

/-- MERGE's write to the flags (46_sync_merger.md R292). -/
def State.setDone (s : State) : State := { s with done := true }

end Sys2Proof.Machine
end

