-- ==== Sys2Proof/Machine/Ops.lean ====
section
/-! DEFINITION. The named operations over the registers: the input registers by index, the context latch, the
error, the packer's two registers, the host's read port, the free values and the turn counter. -/

namespace Sys2Proof.Machine

/-! ## Registers -/

/-- The sequencer moves on (10_state.md R31). -/
def State.goto (s : State) (p : BitVec 4) : State := { s with phase := p }

/-- `CALL_IN[i]`; an index above 11 names no register and reads 0x00 (20_memory.md R75; log 13). -/
def State.readCallIn (s : State) (i : Nat) : Byte := s.callIn[i]?.getD 0#8

/-- Write `CALL_IN[i]`; an index above 11 names no register and nothing is written (20_memory.md R75; log 13). -/
def State.writeCallIn (s : State) (i : Nat) (v : Byte) : State := { s with callIn := s.callIn.setIfInBounds i v }

/-- `LOC_IN[i]`; an index above 5 names no register and reads 0x00 (20_memory.md R75; log 13). -/
def State.readLocIn (s : State) (i : Nat) : Byte := s.locIn[i]?.getD 0#8

/-- Write `LOC_IN[i]`; an index above 5 names no register and nothing is written (20_memory.md R75; log 13). -/
def State.writeLocIn (s : State) (i : Nat) (v : Byte) : State := { s with locIn := s.locIn.setIfInBounds i v }

/-- Write `PWR_IN` (40_encode_sequence.md R135). -/
def State.writePwrIn (s : State) (v : Byte) : State := { s with pwrIn := v }

/-- START's snapshot of the nineteen input bytes, one atomic action (20_memory.md R70). -/
def State.latchContext (s : State) : State := { s with call := s.callIn, loc := s.locIn, pwr := s.pwrIn }

/-- A FIELD operation's writes: `n` and `m` reduced to 28 and 22 bits (00_scope.md R11, 43_packer.md R210). -/
def State.writeFields (s : State) (n m : Int) : State :=
  { s with nReg := BitVec.ofInt 28 n, mReg := BitVec.ofInt 22 m }

/-! ## The error -/

/-- raise `E_T3_NO_CLOSE` (60_exceptions.md R303). Nothing is saved and no handler is entered: the sequencer goes
idle. -/
def State.raiseNoClose (s : State) : State := s.setError.goto phIdle

/-! ## The host's read port -/

/-- A read returns `v`; it changes nothing else (20_memory.md R69; log 8). -/
def State.returnByte (s : State) (v : Byte) : State := { s with rdata := v }

/-! ## Free values -/

/-- One more free value has been used (log 9). -/
def State.useFree (s : State) : State := { s with freeCount := s.freeCount + 1 }

/-- An index a search found, or a free one where it found none (log 12), and the state after. -/
def State.takeIndex (s : State) (o : Option Nat) : Nat × State :=
  match o with
  | some k => (k, s)
  | none => (Config.freeIndex s.freeCount, s.useFree)

/-! ## Turns -/

/-- The turn at hand is over (20_memory.md R72; log 1). -/
def State.endTurn (s : State) : State := { s with agenda := s.agenda.tail }

end Sys2Proof.Machine
end

