-- ==== Sys2Proof/Machine/Convolutional.lean ====
section
/-! DEFINITION. The Convolutional Encoder: CONV (44_convolutional.md R260 to R265). -/

namespace Sys2Proof.Machine

/-- `parity32(x)`: the exclusive-or of the 32 bits (00_scope.md R12). -/
def parity32 (x : Word32) : Bool := (List.range 32).foldl (fun acc k => acc ^^ x.getLsbD k) false

/-- Stream bit `t`: `PKT[t div 8][7 − (t mod 8)]` (20_memory.md R61). -/
def streamBit (pkt : Vector Byte 11) (t : Nat) : Bool := (pkt[t / 8]?.getD 0#8).getLsbD (7 - t % 8)

/-- The 81 input bits of CONV (44_convolutional.md R263). -/
def convInput (pkt : Vector Byte 11) : List Bool := (List.range 81).map (streamBit pkt)

/-- A shift register absorbs a bit: shift left, bit 31 falls off, the bit enters bit 0 (44_convolutional.md
R262). -/
def shiftIn (r : Word32) (b : Bool) : Word32 := (r <<< 1) ||| (BitVec.ofBool b).setWidth 32

/-- The loop of CONV over its input bits: both registers absorb each bit, then the even and the odd output are
emitted (44_convolutional.md R262). Answers the outputs in emission order and the final registers. -/
def convRun : List Bool → Word32 → Word32 → List Bool × Word32 × Word32
  | [], r0, r1 => ([], r0, r1)
  | b :: bs, r0, r1 =>
    let r0 := shiftIn r0 b
    let r1 := shiftIn r1 b
    let rest := convRun bs r0 r1
    (parity32 (r0 &&& poly0) :: parity32 (r1 &&& poly1) :: rest.1, rest.2)

/-- CONV's results: `S`, `REG0`, `REG1`. Both registers start at 0 (44_convolutional.md R261). -/
def convolve (pkt : Vector Byte 11) : Vector Bool 162 × Word32 × Word32 :=
  let out := convRun (convInput pkt) 0#32 0#32
  (Vector.ofFn fun i => out.1.getD i.val false, out.2)

/-- CONV (44_convolutional.md R262). -/
def execConv (s : State) : Host.Outcome State Fault Refusal :=
  let out := convolve s.pkt
  .next (State.goto { s with sBits := out.1, reg0 := out.2.1, reg1 := out.2.2 } phIlv)

end Sys2Proof.Machine
end

