-- ==== Sys2Proof/Machine/Hasher.lean ====
section
/-! DEFINITION. The Callsign Hasher: HASH and the function HASHLITTLE (42_hasher.md R190 to R198). The statement
sequences are the spec's, which marks them general knowledge (log 16). -/

namespace Sys2Proof.Machine

/-- `rot(x, k)`, left rotation (00_scope.md R11 item 3). -/
def rot (x : Word32) (k : Nat) : Word32 := (x <<< k) ||| (x >>> (32 - k))

/-- `le32`, the first byte least significant (42_hasher.md R193). -/
def le32 (b0 b1 b2 b3 : Byte) : Word32 :=
  b0.setWidth 32 + 256#32 * b1.setWidth 32 + 65536#32 * b2.setWidth 32 + 16777216#32 * b3.setWidth 32

/-- The word of the key bytes `pos`, `pos+1`, `pos+2`, `pos+3`, absent bytes taken as 0 (42_hasher.md R193). -/
def keyWord (key : List Byte) (pos : Nat) : Word32 :=
  le32 (key.getD pos 0#8) (key.getD (pos + 1) 0#8) (key.getD (pos + 2) 0#8) (key.getD (pos + 3) 0#8)

/-- `mix(a, b, c)` (42_hasher.md R192). -/
def hashMix (a b c : Word32) : Word32 × Word32 × Word32 :=
  let a := a - c; let a := a ^^^ rot c 4; let c := c + b
  let b := b - a; let b := b ^^^ rot a 6; let a := a + c
  let c := c - b; let c := c ^^^ rot b 8; let b := b + a
  let a := a - c; let a := a ^^^ rot c 16; let c := c + b
  let b := b - a; let b := b ^^^ rot a 19; let a := a + c
  let c := c - b; let c := c ^^^ rot b 4; let b := b + a
  (a, b, c)

/-- `final(a, b, c)` (42_hasher.md R192). -/
def hashFinal (a b c : Word32) : Word32 × Word32 × Word32 :=
  let c := c ^^^ b; let c := c - rot b 14
  let a := a ^^^ c; let a := a - rot c 11
  let b := b ^^^ a; let b := b - rot a 25
  let c := c ^^^ b; let c := c - rot b 16
  let a := a ^^^ c; let a := a - rot c 4
  let b := b ^^^ a; let b := b - rot a 14
  let c := c ^^^ b; let c := c - rot b 24
  (a, b, c)

/-- The full blocks of HASHLITTLE: `blocks` times twelve bytes and `mix` (42_hasher.md R194). Answers the three
accumulators and the tail of the key. -/
def hashBlocks : Nat → List Byte → Word32 × Word32 × Word32 → (Word32 × Word32 × Word32) × List Byte
  | 0, key, abc => (abc, key)
  | blocks + 1, key, (a, b, c) =>
    hashBlocks blocks (key.drop 12)
      (hashMix (a + keyWord key 0) (b + keyWord key 4) (c + keyWord key 8))

/-- HASHLITTLE (42_hasher.md R194). The `while L − pos > 12` loop runs `(L − 1) div 12` times. -/
def hashlittle (key : List Byte) (seed : Word32) : Word32 :=
  let init := hashInit + BitVec.ofNat 32 key.length + seed
  let ((a, b, c), tail) := hashBlocks ((key.length - 1) / 12) key (init, init, init)
  if tail.isEmpty then c
  else (hashFinal (a + keyWord tail 0) (b + keyWord tail 4) (c + keyWord tail 8)).2.2

/-- The key of HASH: `CALL[1..g−1]` (42_hasher.md R197). -/
def hashKey (call : Vector Byte 12) (g : Nat) : List Byte := (call.toList.drop 1).take (g - 1)

/-- `HA`, `HB`, `HC` after HASH on a key of at most twelve bytes (42_hasher.md R197). -/
def hashRegs (key : List Byte) : Word32 × Word32 × Word32 :=
  let init := hashInit + BitVec.ofNat 32 key.length + hashSeed
  if key.isEmpty then (init, init, init)
  else hashFinal (init + keyWord key 0) (init + keyWord key 4) (init + keyWord key 8)

/-- HASH's writes: the three accumulators and `HASH15 = HC[14:0]` (42_hasher.md R197). -/
def State.writeHash (s : State) (abc : Word32 × Word32 × Word32) : State :=
  { s with ha := abc.1, hb := abc.2.1, hc := abc.2.2, hash15 := abc.2.2.extractLsb' 0 15 }

/-- HASH (42_hasher.md R197). CLASS guarantees the bracket; without one the accumulators are free (log 11). -/
def execHash (s : State) : Host.Outcome State Fault Refusal :=
  match closeIndex s.call with
  | some g => .next ((s.writeHash (hashRegs (hashKey s.call g))).goto phField)
  | none =>
    .next ((s.useFree.useFree.useFree.writeHash
      (Config.freeWord s.freeCount, Config.freeWord (s.freeCount + 1), Config.freeWord (s.freeCount + 2))).goto
        phField)

end Sys2Proof.Machine
end

