-- ==== Sys2Proof/Machine/HostAccess.lean ====
section
/-! DEFINITION. The host's operations (40_encode_sequence.md R135 to R138). -/

namespace Sys2Proof.Machine

/-! ## Writes -/

/-- WR.CALL_IN (40_encode_sequence.md R135). -/
def execWrCallIn (i : BitVec 4) (v : Byte) (s : State) : Host.Outcome State Fault Refusal :=
  .next (s.writeCallIn i.toNat v)

/-- WR.LOC_IN (40_encode_sequence.md R135). -/
def execWrLocIn (i : BitVec 3) (v : Byte) (s : State) : Host.Outcome State Fault Refusal :=
  .next (s.writeLocIn i.toNat v)

/-- WR.PWR_IN (40_encode_sequence.md R135). -/
def execWrPwrIn (v : Byte) (s : State) : Host.Outcome State Fault Refusal :=
  .next (s.writePwrIn v)

/-- START (40_encode_sequence.md R137); while busy it is ignored entirely (70_reset_and_hazards.md R336). -/
def execStart (s : State) : Host.Outcome State Fault Refusal :=
  if s.busy then .next s
  else .next (State.goto { s.latchContext.clearFlags with mtype := mtNone } phNorm)

/-- WR.CTRL.NOP: "else nothing" (40_encode_sequence.md R135). -/
def execWrCtrlNop (s : State) : Host.Outcome State Fault Refusal :=
  .next s

/-- WR.IGNORED: "else : nothing" (40_encode_sequence.md R135). -/
def execWrIgnored (s : State) : Host.Outcome State Fault Refusal :=
  .next s

/-! ## Reads -/

/-- RD.CALL_IN (40_encode_sequence.md R136). -/
def execRdCallIn (i : BitVec 4) (s : State) : Host.Outcome State Fault Refusal :=
  .next (s.returnByte (s.readCallIn i.toNat))

/-- RD.LOC_IN (40_encode_sequence.md R136). -/
def execRdLocIn (i : BitVec 3) (s : State) : Host.Outcome State Fault Refusal :=
  .next (s.returnByte (s.readLocIn i.toNat))

/-- RD.PWR_IN (40_encode_sequence.md R136). -/
def execRdPwrIn (s : State) : Host.Outcome State Fault Refusal :=
  .next (s.returnByte s.pwrIn)

/-- RD.CTRL reads 0x00 (40_encode_sequence.md R136, 10_state.md R35). -/
def execRdCtrl (s : State) : Host.Outcome State Fault Refusal :=
  .next (s.returnByte 0x00#8)

/-- RD.STATUS (40_encode_sequence.md R136). -/
def execRdStatus (s : State) : Host.Outcome State Fault Refusal :=
  .next (s.returnByte s.status)

/-- `SYM[i]` as a byte, `zext_8`; an index above 161 names no register and reads 0x00 (log 13). -/
def State.readSym (s : State) (i : Nat) : Byte := (s.sym[i]?.getD 0#2).setWidth 8

/-- RD.SYM (40_encode_sequence.md R138): the symbol while `DONE = 1`, else an unspecified byte (log 10). -/
def execRdSym (i : BitVec 8) (s : State) : Host.Outcome State Fault Refusal :=
  if s.done then .next (s.returnByte (s.readSym i.toNat))
  else .next (s.useFree.returnByte (Config.freeByte s.freeCount))

/-- RD.RESERVED reads 0x00 (20_memory.md R75). -/
def execRdReserved (s : State) : Host.Outcome State Fault Refusal :=
  .next (s.returnByte 0x00#8)

end Sys2Proof.Machine
end

