-- ==== Sys2Proof/Machine/Interleaver.lean ====
section
/-! DEFINITION. The Interleaver: ILV (45_interleaver.md R280 to R285). -/

namespace Sys2Proof.Machine

/-- `rev8(j)`: the 8-bit bit reversal, `Σ j[k]·2^(7−k)` (45_interleaver.md R280). -/
def rev8 (j : Nat) : Nat :=
  (List.range 8).foldl (fun acc k => acc + (if j.testBit k then 2 ^ (7 - k) else 0)) 0

/-- `PERM` computed: the reversals of 0..254 that are below 162, in order (45_interleaver.md R281, R283). -/
def permComputed : List Nat := ((List.range 255).map rev8).filter (· < 162)

/-- `INV` computed: for each position of `D` the index that `PERM` sends there (45_interleaver.md R283). -/
def invComputed : List Nat := (List.range 162).map fun r => permComputed.findIdx (· == r)

/-- The loop of ILV over the indices `j`, with the count `i` of bits placed so far (45_interleaver.md R281). -/
def ilvLoop (src : Vector Bool 162) : List Nat → Nat → Vector Bool 162 → Vector Bool 162
  | [], _, dst => dst
  | j :: js, i, dst =>
    if rev8 j < 162 then ilvLoop src js (i + 1) (dst.setIfInBounds (rev8 j) (src[i]?.getD false))
    else ilvLoop src js i dst

/-- ILV's result `D`, over the old `D` (45_interleaver.md R281). -/
def interleave (src old : Vector Bool 162) : Vector Bool 162 := ilvLoop src (List.range 255) 0 old

/-- ILV (45_interleaver.md R281). -/
def execIlv (s : State) : Host.Outcome State Fault Refusal :=
  .next (State.goto { s with dBits := interleave s.sBits s.dBits } phMerge)

end Sys2Proof.Machine
end

