-- ==== Sys2Proof/Machine/Normalizer.lean ====
section
/-! DEFINITION. The Identity Normalizer: NORM (41_normalizer.md R160 to R169). -/

namespace Sys2Proof.Machine

/-- One slot of NORMCALL (41_normalizer.md R161). -/
def normChar (c : Byte) : Byte :=
  if c == chSlash || c == chLess || c == chGreater then c
  else if isDigit (upcase c) || isUpper (upcase c) then upcase c
  else chSpace

/-- NORMCALL (41_normalizer.md R161). -/
def normCall (raw : Vector Byte 12) : Vector Byte 12 := Vector.ofFn fun i => normChar raw[i]

/-- `loclen` (10_state.md R23): the index of the first 0x00, or 6. -/
def locLen (raw : Vector Byte 6) : Nat := raw.toList.findIdx (· == chNul)

/-- A letter `A..R` of the first pair, after upper-casing (41_normalizer.md R164). -/
def isFieldLetter (c : Byte) : Bool := decide (0x41 ≤ (upcase c).toNat ∧ (upcase c).toNat ≤ 0x52)

/-- A letter `A..X` of the last pair, after upper-casing (41_normalizer.md R164). -/
def isSubsquareLetter (c : Byte) : Bool := decide (0x41 ≤ (upcase c).toNat ∧ (upcase c).toNat ≤ 0x58)

/-- The first four characters are in their ranges (41_normalizer.md R164). -/
def locFourOk (raw : Vector Byte 6) : Bool :=
  isFieldLetter raw[0] && isFieldLetter raw[1] && isDigit raw[2] && isDigit raw[3]

/-- NORMLOC (41_normalizer.md R164). -/
def normLoc (raw : Vector Byte 6) : Vector Byte 6 :=
  if locLen raw = 4 then
    (if locFourOk raw then #v[upcase raw[0], upcase raw[1], raw[2], raw[3], chNul, chNul] else fallbackLoc)
  else if locLen raw = 6 then
    (if locFourOk raw && isSubsquareLetter raw[4] && isSubsquareLetter raw[5] then
      #v[upcase raw[0], upcase raw[1], raw[2], raw[3], upcase raw[4], upcase raw[5]]
     else fallbackLoc)
  else fallbackLoc

/-- NORMPWR (41_normalizer.md R167): walk the ascending table, keep the last entry not above `p`; "Default value
before any match is the minimum". -/
def normPwr (p : Int) : Int := pwrTable.foldl (fun best v => if v ≤ p then v else best) (-30)

/-- NORM (41_normalizer.md R160). -/
def execNorm (s : State) : Host.Outcome State Fault Refusal :=
  .next (State.goto
    { s with
      call := normCall s.call
      loc := normLoc s.loc
      pwr := BitVec.ofInt 8 (normPwr s.pwr.toInt) } phClass)

end Sys2Proof.Machine
end

