-- ==== Sys2Proof/Machine/Packer.lean ====
section
/-! DEFINITION. The Message Packer: CLASS, the five FIELD operations and PACKB (43_packer.md R210 to R241). -/

namespace Sys2Proof.Machine

/-! ## CLASS -/

/-- The class of a callsign whose first slash is at `sp` (43_packer.md R214). -/
def slashClass (call : Vector Byte 12) (sp : Nat) : BitVec 3 :=
  if isBlank (extChar call (sp + 2)) then mtT2S1
  else if isBlank (extChar call (sp + 3)) then mtT2S2
  else mtT2P

/-- The message class (43_packer.md R214). -/
def messageClass (call : Vector Byte 12) : BitVec 3 :=
  if opensBracket call then mtT3
  else match slashIndex call with
    | none => mtT1
    | some sp => slashClass call sp

/-- CLASS (43_packer.md R214); the error is taken in the same step (60_exceptions.md R303). -/
def execClassify (s : State) : Host.Outcome State Fault Refusal :=
  if opensBracket s.call then
    match closeIndex s.call with
    | some _ => .next (State.goto { s with mtype := mtT3 } phHash)
    | none => .next (State.raiseNoClose { s with mtype := mtT3 })
  else .next (State.goto { s with mtype := messageClass s.call } phField)

/-! ## The integers of the FIELD operations -/

/-- `m` of FIELD.T1 (43_packer.md R220). -/
def t1M (loc : Vector Byte 6) (pwr : Int) : Int :=
  ((179 - 10 * (byteInt loc[0] - 0x41) - (byteInt loc[2] - 0x30)) * 180
    + 10 * (byteInt loc[1] - 0x41) + (byteInt loc[3] - 0x30)) * 128 + pwr + 64

/-- `m` of FIELD.T2S1 (43_packer.md R224). -/
def t2s1M (call : Vector Byte 12) (sp : Nat) (pwr : Int) : Int :=
  (60000 - 32768 + suffixOffset (extChar call (sp + 1))) * 128 + pwr + 2 + 64

/-- `m` of FIELD.T2S2 (43_packer.md R226). -/
def t2s2M (call : Vector Byte 12) (sp : Nat) (pwr : Int) : Int :=
  (60000 + 26 + 10 * (byteInt (extChar call (sp + 1)) - 0x30) + (byteInt (extChar call (sp + 2)) - 0x30)) * 128
    + pwr + 2 + 64

/-- `m` of FIELD.T2P (43_packer.md R229). -/
def t2pM (call : Vector Byte 12) (sp : Nat) (pwr : Int) : Int :=
  if 32768 ≤ prefixFold call sp then (prefixFold call sp - 32768) * 128 + pwr + 2 + 64
  else prefixFold call sp * 128 + pwr + 1 + 64

/-- `m` of FIELD.T3 (43_packer.md R233). -/
def t3M (hash15 : BitVec 15) (pwr : Int) : Int := (hash15.toNat : Int) * 128 - (pwr + 1) + 64

/-! ## The FIELD operations -/

/-- FIELD.T1 (43_packer.md R220). -/
def execFieldT1 (s : State) : Host.Outcome State Fault Refusal :=
  .next ((s.writeFields (call28 (pad6 (firstSix s.call))) (t1M s.loc s.pwr.toInt)).goto phPackb)

/-- FIELD.T2S1 (43_packer.md R224). -/
def execFieldT2S1 (s : State) : Host.Outcome State Fault Refusal :=
  let (sp, s') := s.takeIndex (slashIndex s.call)
  .next ((s'.writeFields (call28 (baseSuffix s.call sp)) (t2s1M s.call sp s.pwr.toInt)).goto phPackb)

/-- FIELD.T2S2 (43_packer.md R226). -/
def execFieldT2S2 (s : State) : Host.Outcome State Fault Refusal :=
  let (sp, s') := s.takeIndex (slashIndex s.call)
  .next ((s'.writeFields (call28 (baseSuffix s.call sp)) (t2s2M s.call sp s.pwr.toInt)).goto phPackb)

/-- FIELD.T2P (43_packer.md R229). -/
def execFieldT2P (s : State) : Host.Outcome State Fault Refusal :=
  let (sp, s') := s.takeIndex (slashIndex s.call)
  .next ((s'.writeFields (call28 (basePrefix s.call sp)) (t2pM s.call sp s.pwr.toInt)).goto phPackb)

/-- FIELD.T3 (43_packer.md R233). -/
def execFieldT3 (s : State) : Host.Outcome State Fault Refusal :=
  .next ((s.writeFields (call28 (rotateLoc s.loc)) (t3M s.hash15 s.pwr.toInt)).goto phPackb)

/-! ## PACKB -/

/-- The eleven bytes of the packet (43_packer.md R240, 30_encoding.md R95). -/
def packBytes (n : BitVec 28) (m : BitVec 22) : Vector Byte 11 :=
  #v[n.extractLsb' 20 8, n.extractLsb' 12 8, n.extractLsb' 4 8,
    n.extractLsb' 0 4 ++ m.extractLsb' 18 4, m.extractLsb' 10 8, m.extractLsb' 2 8,
    m.extractLsb' 0 2 ++ 0#6, 0#8, 0#8, 0#8, 0#8]

/-- PACKB (43_packer.md R240). -/
def execPackb (s : State) : Host.Outcome State Fault Refusal :=
  .next (State.goto { s with pkt := packBytes s.nReg s.mReg } phConv)

end Sys2Proof.Machine
end

