-- ==== Sys2Proof/Machine/Reset.lean ====
section
/-! DEFINITION. The reset input: RESET (70_reset_and_hazards.md R330). -/

namespace Sys2Proof.Machine

/-- RESET (70_reset_and_hazards.md R330): every register as `State.reset` has it, the ones of "no value" included
(log 7). The turns to come, the byte the host has read and the count of free values are not the block's and stay. -/
def execReset (s : State) : Host.Outcome State Fault Refusal :=
  .next { State.reset with agenda := s.agenda, rdata := s.rdata, freeCount := s.freeCount }

end Sys2Proof.Machine
end

