-- ==== Sys2Proof/Machine/SyncMerger.lean ====
section
/-! DEFINITION. The Sync Merger: MERGE (46_sync_merger.md R290 to R292). -/

namespace Sys2Proof.Machine

/-- A bit as a number of two bits. -/
def bit2 (b : Bool) : BitVec 2 := if b then 1#2 else 0#2

/-- One symbol: `SYNC[i] + 2·D[i]` (46_sync_merger.md R290). -/
def mergeSymbol (sync data : Bool) : BitVec 2 := bit2 sync + 2#2 * bit2 data

/-- The symbols (46_sync_merger.md R292). -/
def mergeSymbols (data : Vector Bool 162) : Vector (BitVec 2) 162 :=
  Vector.ofFn fun i => mergeSymbol (syncBit i.val) data[i]

/-- MERGE (46_sync_merger.md R292): symbols, `DONE` and `PHASE` in one step. -/
def execMerge (s : State) : Host.Outcome State Fault Refusal :=
  .next ((State.setDone { s with sym := mergeSymbols s.dBits }).goto phIdle)

end Sys2Proof.Machine
end

