-- ==== Sys2Proof/Machine/Dispatch.lean ====
section
/-! DEFINITION. The meaning of every operation of the table (30_encoding.md R107). -/

namespace Sys2Proof.Machine

def exec (i : Instr) (s : State) : Host.Outcome State Fault Refusal :=
  match i with
  | .norm _ => Sys2Proof.Machine.execNorm s
  | .classify _ => Sys2Proof.Machine.execClassify s
  | .hash => Sys2Proof.Machine.execHash s
  | .fieldT1 => Sys2Proof.Machine.execFieldT1 s
  | .fieldT2S1 => Sys2Proof.Machine.execFieldT2S1 s
  | .fieldT2S2 => Sys2Proof.Machine.execFieldT2S2 s
  | .fieldT2P => Sys2Proof.Machine.execFieldT2P s
  | .fieldT3 => Sys2Proof.Machine.execFieldT3 s
  | .packb _ => Sys2Proof.Machine.execPackb s
  | .conv _ => Sys2Proof.Machine.execConv s
  | .ilv _ => Sys2Proof.Machine.execIlv s
  | .merge _ => Sys2Proof.Machine.execMerge s
  | .wrCallIn k v => Sys2Proof.Machine.execWrCallIn k v s
  | .wrLocIn k v => Sys2Proof.Machine.execWrLocIn k v s
  | .wrPwrIn v => Sys2Proof.Machine.execWrPwrIn v s
  | .start _ => Sys2Proof.Machine.execStart s
  | .wrCtrlNop _ => Sys2Proof.Machine.execWrCtrlNop s
  | .rdCallIn k _ => Sys2Proof.Machine.execRdCallIn k s
  | .rdLocIn k _ => Sys2Proof.Machine.execRdLocIn k s
  | .rdPwrIn _ => Sys2Proof.Machine.execRdPwrIn s
  | .rdCtrl _ => Sys2Proof.Machine.execRdCtrl s
  | .rdStatus _ => Sys2Proof.Machine.execRdStatus s
  | .rdSym k _ => Sys2Proof.Machine.execRdSym k s
  | .wrIgnored _ _ => Sys2Proof.Machine.execWrIgnored s
  | .rdReserved _ _ => Sys2Proof.Machine.execRdReserved s
  | .reset => Sys2Proof.Machine.execReset s

end Sys2Proof.Machine
end

