-- ==== Sys2Proof/Machine/Fetch.lean ====
section
/-! DEFINITION. Where the next operation comes from: the turn at the head of the agenda, and for a sequencer turn
the select word `PHASE ∥ MTYPE` (30_encoding.md R105, 20_memory.md R72). Nothing is fetched from a memory
(20_memory.md R79). -/

namespace Sys2Proof.Machine

/-- `OPSEL = PHASE ∥ MTYPE` (30_encoding.md R105). -/
def State.opsel (s : State) : OpSel := s.phase ++ s.mtype

/-- The sequencer's word; "while `PHASE = IDLE` the sequencer has no step" (40_encode_sequence.md R131). -/
def State.sequencerWord (s : State) : Option OpWord := if s.busy then some (.select s.opsel) else none

/-- The word of the next step. With no turn listed the sequencer moves (log 1). -/
def State.fetch (s : State) : Option OpWord :=
  match s.agenda with
  | [] => s.sequencerWord
  | .seq :: _ => s.sequencerWord
  | .host w :: _ => some (.access w)
  | .reset :: _ => some .resetInput

/-- The reset input asserted next. -/
def State.placeReset (s : State) : State := { s with agenda := .reset :: s.agenda }

/-- A sequencer turn next, with `PHASE` and `MTYPE` at the fields of a select word. -/
def State.placeSelect (s : State) (w : OpSel) : State :=
  { s with phase := phaseField w, mtype := mtypeField w, agenda := .seq :: s.agenda }

/-- A host access next. -/
def State.placeAccess (s : State) (w : Hacc) : State := { s with agenda := .host w :: s.agenda }

/-- Place a table word where the next step takes its operation from: 0 bits for the reset input, up to 8 for a
select word, more for an access word (log 2). -/
def State.placeTableWord (s : State) (nbits w : Nat) : State :=
  if nbits = 0 then s.placeReset
  else if nbits ≤ 8 then s.placeSelect (BitVec.ofNat 7 w)
  else s.placeAccess (BitVec.ofNat 18 w)

end Sys2Proof.Machine
end

