-- ==== Sys2Proof/Machine/Step.lean ====
section
/-! DEFINITION. One atomic step of the total order of 20_memory.md R72. -/

namespace Sys2Proof.Machine

/-- Take the next turn, end it, and perform its operation. A turn without an operation passes; a sequencer turn with
a reserved select word stops the machine (30_encoding.md R112). -/
def step (s : State) : Host.Outcome State Fault Refusal :=
  match s.fetch with
  | none => .next s.endTurn
  | some w =>
    match decodeWord w with
    | .ok i => exec i s.endTurn
    | .error _ => .fault (.stuckSelect s.opsel)

/-- The state with a table word placed as the next operation (log 2). -/
def State.withFetchWord (s : State) (nbits w : Nat) : State := s.placeTableWord nbits w

end Sys2Proof.Machine
end

