-- ==== Sys2Proof/Machine/HostNotation.lean ====
section
/-! DEFINITION. The host notation and its pseudo-operations as turns (30_encoding.md R118, R119). -/

namespace Sys2Proof.Machine

/-- `WR <number>, <byte>` (30_encoding.md R118). -/
def wrTurn (a : Nat) (v : Byte) : Turn := .host (accessWord true (BitVec.ofNat 9 a) v)

/-- `RD <number>` (30_encoding.md R118); the ignored bits are 0. -/
def rdTurn (a : Nat) : Turn := .host (accessWord false (BitVec.ofNat 9 a) 0#8)

/-- `CALLSIGN "text"`: twelve writes (30_encoding.md R119). -/
def callsignTurns (text : List Byte) : List Turn := (List.range 12).map fun i => wrTurn i (text.getD i 0#8)

/-- `LOCATOR "text"`: six writes (30_encoding.md R119). -/
def locatorTurns (text : List Byte) : List Turn := (List.range 6).map fun i => wrTurn (0x010 + i) (text.getD i 0#8)

/-- `POWER v` (30_encoding.md R119). -/
def powerTurn (v : Int) : Turn := wrTurn 0x018 (BitVec.ofInt 8 v)

/-- `START` (30_encoding.md R119). -/
def startTurn : Turn := wrTurn 0x019 0x01#8

/-- One read of `STATUS`, the body of `WAIT` (30_encoding.md R119). -/
def pollTurn : Turn := rdTurn 0x01A

/-- `WAIT` ends when the byte read has bit 0 = 0 (30_encoding.md R119). -/
def waitEnds (status : Byte) : Bool := !status.getLsbD 0

/-- `WAIT` as `k` polls with one sequencer turn before each; how many polls a host makes is not specified
(70_reset_and_hazards.md R343; log 17). -/
def waitTurns (k : Nat) : List Turn := (List.replicate k [Turn.seq, pollTurn]).flatten

/-- `READSYMS`: 162 reads (30_encoding.md R119). -/
def readSymsTurns : List Turn := (List.range 162).map fun i => rdTurn (0x100 + i)

/-- `ENCODE` up to the end of its `WAIT` of `k` polls (30_encoding.md R119); `READSYMS` follows if the last `STATUS`
read had bit 1 set (`encodeReadsSymbols`). -/
def encodeTurns (call loc : List Byte) (pwr : Int) (k : Nat) : List Turn :=
  callsignTurns call ++ locatorTurns loc ++ [powerTurn pwr, startTurn] ++ waitTurns k

/-- Whether `ENCODE` goes on to `READSYMS` (30_encoding.md R119). -/
def encodeReadsSymbols (status : Byte) : Bool := status.getLsbD 1

end Sys2Proof.Machine
end

