-- ==== Sys2Proof/Safety.lean ====
section
/-! DEFINITION. What claims are stated in: the invariant of the block, the encode as a function of its nineteen input
bytes (40_encode_sequence.md R130), the parts of the state the host can and cannot reach. -/

namespace Sys2Proof.Machine

/-! ## Normalized identities -/

/-- A character a normalized callsign may hold (30_encoding.md R92). -/
def isNormalChar (c : Byte) : Bool :=
  isDigit c || isUpper c || c == chSpace || c == chSlash || c == chLess || c == chGreater

/-- A locator as NORM leaves it (10_state.md R25): the fallback, or letters `A..R`, digits, and either two letters
`A..X` or two 0x00. -/
def isNormalLoc (l : Vector Byte 6) : Bool :=
  isUpper l[0] && decide (l[0].toNat ≤ 0x52) && isUpper l[1] && decide (l[1].toNat ≤ 0x52) &&
  isDigit l[2] && isDigit l[3] &&
  ((l[4] == chNul && l[5] == chNul) ||
    (isUpper l[4] && decide (l[4].toNat ≤ 0x58) && isUpper l[5] && decide (l[5].toNat ≤ 0x58)))

/-- The context is a normalized identity (10_state.md R25). -/
def State.contextNormal (s : State) : Prop :=
  (∀ i : Fin 12, isNormalChar s.call[i] = true) ∧ isNormalLoc s.loc = true ∧ s.pwr.toInt ∈ pwrTable

/-! ## The invariant -/

/-- `PHASE` and `MTYPE` go together as 40_encode_sequence.md R132 moves them. -/
def State.selectLegal (s : State) : Prop :=
  (s.phase = phIdle ∧ s.mtype.toNat ≤ 5) ∨
  ((s.phase = phNorm ∨ s.phase = phClass) ∧ s.mtype = mtNone) ∨
  (s.phase = phHash ∧ s.mtype = mtT3) ∨
  ((s.phase = phField ∨ s.phase = phPackb ∨ s.phase = phConv ∨ s.phase = phIlv ∨ s.phase = phMerge) ∧
    1 ≤ s.mtype.toNat ∧ s.mtype.toNat ≤ 5)

/-- What CLASS has established about the callsign holds as long as a later operation needs it (43_packer.md R214):
the class is the callsign's, and HASH and FIELD.T3 find their bracket. -/
def State.classKept (s : State) : Prop :=
  s.mtype ≠ mtNone → s.mtype = messageClass s.call ∧
    (s.phase ≠ phIdle → s.mtype = mtT3 → closeIndex s.call ≠ none)

/-- At most one of `BUSY`, `DONE`, `ERR` is 1, and `ERRCODE` says which error (10_state.md R33, R36, R37). -/
def State.flagsLegal (s : State) : Prop :=
  (s.busy = true → s.done = false ∧ s.err = false) ∧ (s.done = true → s.err = false) ∧
  (s.err = true → s.errcode = errT3NoClose) ∧ (s.err = false → s.errcode = 0#4)

/-- The context is normalized from the end of NORM to the next START (10_state.md R25). -/
def State.contextKept (s : State) : Prop :=
  (s.phase = phClass ∨ s.mtype ≠ mtNone) → s.contextNormal

/-- `PKT[6][5:0]` and `PKT[7..10]` are 0 after PACKB (43_packer.md R241). -/
def State.packetFlushed (s : State) : Prop :=
  (s.phase = phConv ∨ s.phase = phIlv ∨ s.phase = phMerge ∨ s.done = true) →
    s.pkt[6].extractLsb' 0 6 = 0#6 ∧ s.pkt[7] = 0#8 ∧ s.pkt[8] = 0#8 ∧ s.pkt[9] = 0#8 ∧ s.pkt[10] = 0#8

/-- After CONV the two shift registers are equal, `M[0] · 2^31` (44_convolutional.md R264). -/
def State.registersFlushed (s : State) : Prop :=
  (s.phase = phIlv ∨ s.phase = phMerge ∨ s.done = true) →
    s.reg0 = s.reg1 ∧ s.reg0 = (if s.pkt[6].getLsbD 6 then 0x80000000#32 else 0#32)

/-- While `DONE = 1` every symbol is `D[i] ∥ SYNC[i]` (46_sync_merger.md R290, 70_reset_and_hazards.md R338). -/
def State.symbolsKept (s : State) : Prop :=
  s.done = true → s.mtype ≠ mtNone ∧
    ∀ i : Fin 162, s.sym[i].getLsbD 0 = syncBit i.val ∧ s.sym[i].getLsbD 1 = s.dBits[i]

/-- The invariant of the block. -/
structure State.Inv (s : State) : Prop where
  select : s.selectLegal
  klass : s.classKept
  flags : s.flagsLegal
  context : s.contextKept
  packet : s.packetFlushed
  registers : s.registersFlushed
  symbols : s.symbolsKept

/-! ## The encode as a function -/

/-- PACKB to MERGE as a function of the two fields (40_encode_sequence.md R130). -/
def symbolsOfFields (n m : Int) : Vector (BitVec 2) 162 :=
  mergeSymbols (interleave (convolve (packBytes (BitVec.ofInt 28 n) (BitVec.ofInt 22 m))).1
    (Vector.replicate 162 false))

/-- `HASH15` as 42_hasher.md R197 states it equivalently. -/
def hash15Of (call : Vector Byte 12) (g : Nat) : BitVec 15 :=
  (hashlittle (hashKey call g) hashSeed).extractLsb' 0 15

/-- CLASS to MERGE on a normalized identity; `none` is `Error(E_T3_NO_CLOSE)` (40_encode_sequence.md R130). -/
def encNormal (call : Vector Byte 12) (loc : Vector Byte 6) (pwr : Int) : Option (Vector (BitVec 2) 162) :=
  if opensBracket call then
    match closeIndex call with
    | none => none
    | some g => some (symbolsOfFields (call28 (rotateLoc loc)) (t3M (hash15Of call g) pwr))
  else
    match slashIndex call with
    | none => some (symbolsOfFields (call28 (pad6 (firstSix call))) (t1M loc pwr))
    | some sp =>
      if isBlank (extChar call (sp + 2)) then
        some (symbolsOfFields (call28 (baseSuffix call sp)) (t2s1M call sp pwr))
      else if isBlank (extChar call (sp + 3)) then
        some (symbolsOfFields (call28 (baseSuffix call sp)) (t2s2M call sp pwr))
      else some (symbolsOfFields (call28 (basePrefix call sp)) (t2pM call sp pwr))

/-- `ENC` of 40_encode_sequence.md R130: the encode as a function of the nineteen input bytes. -/
def enc (callIn : Vector Byte 12) (locIn : Vector Byte 6) (pwrIn : Byte) : Option (Vector (BitVec 2) 162) :=
  encNormal (normCall callIn) (normLoc locIn) (normPwr pwrIn.toInt)

/-! ## The callsign code in its expanded form -/

/-- `n` from six character codes, expanded (30_encoding.md R100). -/
def sixCode (c0 c1 c2 c3 c4 c5 : Int) : Int :=
  7085880 * c0 + 196830 * c1 + 19683 * c2 + 729 * (c3 - 10) + 27 * (c4 - 10) + (c5 - 10)

/-- `n` of a six-character field whose slot `k` holds `f k`, after the one-letter adjustment (43_packer.md R215). -/
def paddedCode (f : Nat → Byte) : Int :=
  if isDigit (f 1) = true ∧ isUpper (f 2) = true then
    sixCode 36 (charCode (f 0)) (charCode (f 1)) (charCode (f 2)) (charCode (f 3)) (charCode (f 4))
  else sixCode (charCode (f 0)) (charCode (f 1)) (charCode (f 2)) (charCode (f 3)) (charCode (f 4)) (charCode (f 5))

/-- `g` is the least index in 1..11 that holds `>` (43_packer.md R232). -/
def isFirstClose (call : Vector Byte 12) (g : Nat) : Prop :=
  1 ≤ g ∧ g ≤ 11 ∧ extChar call g = chGreater ∧ ∀ k, 1 ≤ k → k < g → extChar call k ≠ chGreater

/-- `sp` is the least index in 0..11 that holds `/` (43_packer.md R214). -/
def isFirstSlash (call : Vector Byte 12) (sp : Nat) : Prop :=
  sp ≤ 11 ∧ extChar call sp = chSlash ∧ ∀ k, k < sp → extChar call k ≠ chSlash

/-- No slot from `lo` on holds the character. -/
def lacks (call : Vector Byte 12) (lo : Nat) (c : Byte) : Prop := ∀ k, lo ≤ k → k ≤ 11 → extChar call k ≠ c

/-- How many sequencer steps an encode of this callsign takes (40_encode_sequence.md R133). -/
def encodeSteps (callIn : Vector Byte 12) : Nat :=
  if opensBracket callIn then (if (closeIndex callIn).isSome then 8 else 2) else 7

/-! ## Parts of the state -/

/-- Two states agree on everything the sequencer reads or writes; they may differ in the input registers and in the
model's own fields. -/
def State.sameEncode (s t : State) : Prop :=
  s.call = t.call ∧ s.loc = t.loc ∧ s.pwr = t.pwr ∧ s.phase = t.phase ∧ s.mtype = t.mtype ∧
  s.done = t.done ∧ s.err = t.err ∧ s.errcode = t.errcode ∧ s.ha = t.ha ∧ s.hb = t.hb ∧ s.hc = t.hc ∧
  s.hash15 = t.hash15 ∧ s.nReg = t.nReg ∧ s.mReg = t.mReg ∧ s.pkt = t.pkt ∧ s.reg0 = t.reg0 ∧
  s.reg1 = t.reg1 ∧ s.sBits = t.sBits ∧ s.dBits = t.dBits ∧ s.sym = t.sym

/-- Two states agree on everything the host can read (10_state.md R48): the inputs, `STATUS`, and the symbols while
`DONE = 1`. -/
def State.sameToHost (s t : State) : Prop :=
  s.callIn = t.callIn ∧ s.locIn = t.locIn ∧ s.pwrIn = t.pwrIn ∧ s.status = t.status ∧
  (s.done = true → s.sym = t.sym)

/-- A turn that is no reset and no START write: the sequencer's, or any other host access. -/
def Turn.quiet : Turn → Bool
  | .seq => true
  | .reset => false
  | .host w =>
    match decodeAccess w with
    | .start _ => false
    | _ => true

/-- How many of the turns are the sequencer's. -/
def seqCount (ts : List Turn) : Nat := ts.countP (· == Turn.seq)

/-- The MemRead of 40_encode_sequence.md R136 and R138 on a register number, as the byte read; `free` stands for the
unspecified byte of a symbol read while `DONE = 0`. -/
def State.memRead (s : State) (free : Byte) (a : RegNum) : Byte :=
  if a.toNat ≤ 0x00B then s.callIn[a.toNat]?.getD 0#8
  else if 0x010 ≤ a.toNat ∧ a.toNat ≤ 0x015 then s.locIn[a.toNat - 0x010]?.getD 0#8
  else if a.toNat = 0x018 then s.pwrIn
  else if a.toNat = 0x019 then 0x00#8
  else if a.toNat = 0x01A then s.status
  else if 0x100 ≤ a.toNat ∧ a.toNat ≤ 0x1A1 then
    (if s.done then (s.sym[a.toNat - 0x100]?.getD 0#2).setWidth 8 else free)
  else 0x00#8

end Sys2Proof.Machine
end

