-- ==== Sys2Proof/Certificates/Slice0/Obligations.lean ====
section
/-! DEFINITION. The statements for the provers. Each docstring names the rule of spec/ it formalises; one that rests
on a choice of the model says so and names the log entry. -/

open Sys2Proof Sys2Proof.Machine

/-! ## Words and steps -/

/-- Decoding the encoding of a well-formed operation gives it back, for every operand (30_encoding.md R105 to R107).
The bytes of a word are the model's choice (log 3), and so is carrying the ignored bits (log 4). -/
def Obligations.DecodeEncodeAgree : Prop :=
  ∀ i : Instr, i.wellFormed = true → decode (encode i) = .ok i

/-- What decodes is well-formed and is the encoding of what it decodes to: every word has at most one meaning
(30_encoding.md R107; bytes: log 3, reserved `MTYPE` codes: log 5). -/
def Obligations.EncodeDecodeAgree : Prop :=
  ∀ (bs : List Byte) (i : Instr), decode bs = .ok i → i.wellFormed = true ∧ encode i = bs

/-- A few words of 95_test_vectors.md section 9 and of 30_encoding.md R107 decode to the operations they stand for. -/
def Obligations.SampleWordsDecode : Prop :=
  decodeAccess 0x20362#18 = .wrCallIn 3 0x62 ∧ decodeAccess 0x21046#18 = .wrLocIn 0 0x46 ∧
  decodeAccess 0x218E1#18 = .wrPwrIn 0xE1 ∧ decodeAccess 0x21901#18 = .start 0 ∧
  decodeAccess 0x219FF#18 = .start 127 ∧ decodeAccess 0x21900#18 = .wrCtrlNop 0 ∧
  decodeAccess 0x00300#18 = .rdCallIn 3 0 ∧ decodeAccess 0x01500#18 = .rdLocIn 5 0 ∧
  decodeAccess 0x01800#18 = .rdPwrIn 0 ∧ decodeAccess 0x01900#18 = .rdCtrl 0 ∧
  decodeAccess 0x01A00#18 = .rdStatus 0 ∧ decodeAccess 0x1A100#18 = .rdSym 161 0 ∧
  decodeAccess 0x30002#18 = .wrIgnored 0x100 2 ∧ decodeAccess 0x1A200#18 = .rdReserved 0x1A2 0 ∧
  decodeSelect 0b0001000#7 = .ok (.norm 0) ∧ decodeSelect 0b0011101#7 = .ok .hash ∧
  decodeSelect 0b0100100#7 = .ok .fieldT2P ∧ decodeSelect 0b1000101#7 = .ok (.merge 5)

/-- A step takes the turn at the head of the agenda and runs the operation its word decodes to, on the state with
that turn taken off; a sequencer turn while idle passes with nothing done (40_encode_sequence.md R131,
30_encoding.md R105, R106). The agenda is the model's form of the interleaving (log 1). -/
def Obligations.StepRunsDecoded : Prop :=
  ∀ s : State,
    (∀ w rest, s.agenda = .host w :: rest → step s = exec (decodeAccess w) { s with agenda := rest }) ∧
    (∀ rest, s.agenda = .reset :: rest → step s = exec .reset { s with agenda := rest }) ∧
    (∀ i, (s.agenda = [] ∨ s.agenda.head? = some .seq) → s.phase ≠ phIdle →
      decodeSelect (s.phase ++ s.mtype) = .ok i → step s = exec i { s with agenda := s.agenda.tail }) ∧
    ((s.agenda = [] ∨ s.agenda.head? = some .seq) → s.phase = phIdle →
      step s = .next { s with agenda := s.agenda.tail })

/-- A sequencer turn stops the machine exactly at the reserved select words (30_encoding.md R112); that it is a stop of
the whole machine, and that `MTYPE` codes 6 and 7 are reserved in every phase, are the model's readings (log 5, log 18). -/
def Obligations.StuckExactlyAtReserved : Prop :=
  ∀ s : State, (s.agenda = [] ∨ s.agenda.head? = some .seq) →
    ((∃ r, step s = .fault r) ↔
      (9 ≤ s.phase.toNat ∨ (s.phase ≠ phIdle ∧ 6 ≤ s.mtype.toNat) ∨ (s.phase = phHash ∧ s.mtype ≠ mtT3) ∨
        (s.phase = phField ∧ s.mtype = mtNone)))

/-! ## The invariant -/

/-- The state after reset meets the invariant. -/
def Obligations.ResetMeetsInvariant : Prop := State.reset.Inv

/-- Every step from a state that meets the invariant gives one that meets it: `PHASE` and `MTYPE` stay legal
(10_state.md R30, R32), the flags exclusive (R33), the context normalized (R25), the packet's flush bits and the shift
registers as PACKB and CONV leave them (43_packer.md R241, 44_convolutional.md R264), the symbols valid while
`DONE = 1` (70_reset_and_hazards.md R338). -/
def Obligations.StepKeepsInvariant : Prop :=
  ∀ s t : State, s.Inv → step s = .next t → t.Inv

/-- From a state that meets the invariant the machine never stops: the reserved select words are unreachable
(30_encoding.md R112) and every operation completes. -/
def Obligations.InvariantNeverStops : Prop :=
  ∀ s : State, s.Inv → ∃ t, step s = .next t

/-! ## NORM -/

/-- NORMCALL, slot by slot (41_normalizer.md R161), and NORM's frame. -/
def Obligations.NormCallsign : Prop :=
  ∀ (m : BitVec 3) (s : State), ∃ t, exec (.norm m) s = .next t ∧
    (∀ i : Fin 12,
      let c := s.call[i]
      let u := if 0x61 ≤ c.toNat ∧ c.toNat ≤ 0x7A then c - 0x20#8 else c
      t.call[i] =
        if c = 0x2F#8 ∨ c = 0x3C#8 ∨ c = 0x3E#8 then c
        else if (0x30 ≤ u.toNat ∧ u.toNat ≤ 0x39) ∨ (0x41 ≤ u.toNat ∧ u.toNat ≤ 0x5A) then u
        else 0x20#8) ∧
    t.phase = phClass ∧ t = { s with call := t.call, loc := t.loc, pwr := t.pwr, phase := t.phase }

/-- NORMLOC (41_normalizer.md R164): a valid locator of exactly four or exactly six characters is kept upper-cased,
anything else becomes `"AA00AA"` as a whole. -/
def Obligations.NormLocator : Prop :=
  ∀ (m : BitVec 3) (s : State), ∃ t, exec (.norm m) s = .next t ∧
    (let l := s.loc
     let four : Prop := l[0] ≠ 0 ∧ l[1] ≠ 0 ∧ l[2] ≠ 0 ∧ l[3] ≠ 0
     let first : Prop := 0x41 ≤ (upcase l[0]).toNat ∧ (upcase l[0]).toNat ≤ 0x52 ∧
       0x41 ≤ (upcase l[1]).toNat ∧ (upcase l[1]).toNat ≤ 0x52 ∧
       0x30 ≤ l[2].toNat ∧ l[2].toNat ≤ 0x39 ∧ 0x30 ≤ l[3].toNat ∧ l[3].toNat ≤ 0x39
     let last : Prop := 0x41 ≤ (upcase l[4]).toNat ∧ (upcase l[4]).toNat ≤ 0x58 ∧
       0x41 ≤ (upcase l[5]).toNat ∧ (upcase l[5]).toNat ≤ 0x58
     (four ∧ l[4] = 0 ∧ first → t.loc = #v[upcase l[0], upcase l[1], l[2], l[3], 0, 0]) ∧
     (four ∧ l[4] ≠ 0 ∧ l[5] ≠ 0 ∧ first ∧ last →
       t.loc = #v[upcase l[0], upcase l[1], l[2], l[3], upcase l[4], upcase l[5]]) ∧
     (¬ (four ∧ l[4] = 0 ∧ first) ∧ ¬ (four ∧ l[4] ≠ 0 ∧ l[5] ≠ 0 ∧ first ∧ last) →
       t.loc = #v[0x41, 0x41, 0x30, 0x30, 0x41, 0x41])) ∧
    t = { s with call := t.call, loc := t.loc, pwr := t.pwr, phase := phClass }

/-- NORMPWR (41_normalizer.md R167): the greatest legal power not above the given one, and −30 below the table. -/
def Obligations.NormPowerIsGreatestLegal : Prop :=
  ∀ (m : BitVec 3) (s : State), ∃ t, exec (.norm m) s = .next t ∧ t.pwr.toInt ∈ pwrTable ∧
    (-30 ≤ s.pwr.toInt → t.pwr.toInt ≤ s.pwr.toInt ∧ ∀ v ∈ pwrTable, v ≤ s.pwr.toInt → v ≤ t.pwr.toInt) ∧
    (s.pwr.toInt < -30 → t.pwr.toInt = -30) ∧
    t = { s with call := t.call, loc := t.loc, pwr := t.pwr, phase := phClass }

/-- NORMPWR over the integers (41_normalizer.md R167): the greatest legal power not above `p`, −30 below the table,
monotonic, never above its argument but for `p < −30`, and 61 clamps to 60. -/
def Obligations.NormPowerOverIntegers : Prop :=
  (∀ p : Int, -30 ≤ p → normPwr p ∈ pwrTable ∧ normPwr p ≤ p ∧ ∀ v ∈ pwrTable, v ≤ p → v ≤ normPwr p) ∧
    (∀ p : Int, p < -30 → normPwr p = -30) ∧ (∀ p q : Int, p ≤ q → normPwr p ≤ normPwr q) ∧ normPwr 61 = 60 ∧
    pwrTable = [-30, -27, -23, -20, -17, -13, -10, -7, -3, 0, 3, 7, 10, 13, 17, 20, 23, 27, 30, 33, 37, 40, 43, 47,
      50, 53, 57, 60]

/-- Normalizing a normalized identity is a no-op (41_normalizer.md R169), for each function and for the operation. -/
def Obligations.NormalizationIdempotent : Prop :=
  (∀ v, normCall (normCall v) = normCall v) ∧ (∀ v, normLoc (normLoc v) = normLoc v) ∧
    (∀ p, normPwr (normPwr p) = normPwr p) ∧
    ∀ (m m' : BitVec 3) (s t : State), exec (.norm m) s = .next t → exec (.norm m') t = .next t

/-- After NORM the context is a normalized identity (10_state.md R25, 30_encoding.md R92, R93). -/
def Obligations.NormEstablishesFormats : Prop :=
  ∀ (m : BitVec 3) (s t : State), exec (.norm m) s = .next t → t.contextNormal

/-! ## CLASS and the error -/

/-- CLASS (43_packer.md R214): the class of the callsign, the next phase, and the error entry of 60_exceptions.md R303
in the same step; everything else stays. -/
def Obligations.ClassChoosesType : Prop :=
  ∀ (m : BitVec 3) (s : State),
    (s.call[0] = 0x3C#8 → ∀ g, isFirstClose s.call g →
      exec (.classify m) s = .next { s with mtype := 5#3, phase := phHash }) ∧
    (s.call[0] = 0x3C#8 → lacks s.call 1 0x3E#8 →
      exec (.classify m) s = .next { s with mtype := 5#3, err := true, errcode := 1#4, phase := phIdle }) ∧
    (s.call[0] ≠ 0x3C#8 → lacks s.call 0 0x2F#8 →
      exec (.classify m) s = .next { s with mtype := 1#3, phase := phField }) ∧
    (s.call[0] ≠ 0x3C#8 → ∀ sp, isFirstSlash s.call sp →
      exec (.classify m) s = .next { s with
        mtype := (if extChar s.call (sp + 2) = 0x20#8 ∨ extChar s.call (sp + 2) = 0#8 then 2#3
          else if extChar s.call (sp + 3) = 0x20#8 ∨ extChar s.call (sp + 3) = 0#8 then 3#3 else 4#3)
        phase := phField })

/-- Raising `E_T3_NO_CLOSE` (60_exceptions.md R303): after START, NORM and CLASS on a callsign that opens a bracket and
closes none, `STATUS` reads 0x14, `MTYPE` is T3, the sequencer is idle, and nothing from HASH on has changed. -/
def Obligations.ErrorEntry : Prop :=
  ∀ (m : BitVec 3) (s : State), s.done = false → s.call[0] = 0x3C#8 → lacks s.call 1 0x3E#8 →
    ∃ t, exec (.classify m) s = .next t ∧ t.status = 0x14#8 ∧ t.done = false ∧ t.mtype = mtT3 ∧ t.phase = phIdle ∧
      t = { s with mtype := t.mtype, err := true, errcode := 1#4, phase := t.phase }

/-- CLASS is the only operation that raises the error, and it does so only for its one cause (60_exceptions.md
R301). -/
def Obligations.ErrorOnlyFromClass : Prop :=
  ∀ (i : Instr) (s t : State), exec i s = .next t → t.err = true → s.err = false →
    (∃ m, i = .classify m) ∧ s.call[0] = 0x3C#8 ∧ lacks s.call 1 0x3E#8 ∧ t.errcode = 1#4

/-- The cause tested on the inputs as they stand at START: the spec's own inference (60_exceptions.md R302, derived there
from R161 and R214), with the byte of `STATUS` after the raise (R303). -/
def Obligations.ErrorCauseOnInput : Prop :=
  ∀ (x : BitVec 7) (m m' : BitVec 3) (s : State), s.phase = phIdle →
    ∃ a b c, exec (.start x) s = .next a ∧ exec (.norm m) a = .next b ∧ exec (.classify m') b = .next c ∧
      (c.err = true ↔ s.callIn[0] = 0x3C#8 ∧ lacks s.callIn 1 0x3E#8) ∧ (c.err = true → c.status = 0x14#8)

/-! ## HASH -/

/-- HASH (42_hasher.md R197): the three accumulators, and `HC` as HASHLITTLE of the text between the brackets with seed
146, `HASH15` its low 15 bits. For the empty key the accumulators keep their start value; otherwise they are the results
of `final`, whose statements the spec marks general knowledge (log 16). -/
def Obligations.HashIsHashlittle : Prop :=
  ∀ (s : State) (g : Nat), isFirstClose s.call g →
    ∃ t, exec .hash s = .next t ∧
      (let key := (List.range (g - 1)).map fun k => extChar s.call (1 + k)
       let init := 0xdeadbf81#32 + BitVec.ofNat 32 (g - 1)
       t.hc = hashlittle key 146#32 ∧
       (g = 1 → t.ha = 0xdeadbf81#32 ∧ t.hb = 0xdeadbf81#32 ∧ t.hc = 0xdeadbf81#32) ∧
       (g ≠ 1 → (t.ha, t.hb, t.hc) =
         hashFinal (init + keyWord key 0) (init + keyWord key 4) (init + keyWord key 8))) ∧
      t.hash15 = t.hc.extractLsb' 0 15 ∧ t.phase = phField ∧
      t = { s with ha := t.ha, hb := t.hb, hc := t.hc, hash15 := t.hash15, phase := t.phase }

/-- HASHLITTLE reproduces the values the spec gives for lookup3's self-test (42_hasher.md R196). -/
def Obligations.HashlittleSelfTest : Prop :=
  hashlittle [] 0#32 = 0xdeadbeef#32 ∧ hashlittle [] 0xdeadbeef#32 = 0xbd5b7dde#32 ∧
  hashlittle ("Four score and seven years ago".toList.map fun c => BitVec.ofNat 8 c.toNat) 0#32 = 0x17770551#32 ∧
  hashlittle ("Four score and seven years ago".toList.map fun c => BitVec.ofNat 8 c.toNat) 1#32 = 0xcd628161#32

/-- HASH on a callsign without a closing bracket, which CLASS excludes (42_hasher.md R197): the model's choice (log 11)
is that it completes with accumulators nothing constrains. -/
def Obligations.HashWithoutBracketCompletes : Prop :=
  ∀ s : State, lacks s.call 1 0x3E#8 →
    ∃ t, exec .hash s = .next t ∧ t.hash15 = t.hc.extractLsb' 0 15 ∧ t.phase = phField ∧
      t = { s with
          ha := t.ha, hb := t.hb, hc := t.hc, hash15 := t.hash15, phase := t.phase,
          freeCount := t.freeCount }

/-! ## FIELD -/

/-- FIELD.T1 (43_packer.md R220), with `n` in the expanded form of 30_encoding.md R100. -/
def Obligations.FieldStandard : Prop :=
  ∀ s : State, ∃ t, exec .fieldT1 s = .next t ∧
    (t.nReg.toNat : Int) = paddedCode (extChar s.call) % 2 ^ 28 ∧
    (t.mReg.toNat : Int) =
      (((179 - 10 * (byteInt s.loc[0] - 65) - (byteInt s.loc[2] - 48)) * 180 + 10 * (byteInt s.loc[1] - 65)
        + (byteInt s.loc[3] - 48)) * 128 + s.pwr.toInt + 64) % 2 ^ 22 ∧
    t.phase = phPackb ∧ t = { s with nReg := t.nReg, mReg := t.mReg, phase := t.phase }

/-- FIELD.T2S1 (43_packer.md R224). -/
def Obligations.FieldSingleSuffix : Prop :=
  ∀ (s : State) (sp : Nat), isFirstSlash s.call sp → ∃ t, exec .fieldT2S1 s = .next t ∧
    (t.nReg.toNat : Int) =
      paddedCode (fun k => canonChar (if k < sp then extChar s.call k else 0x20#8)) % 2 ^ 28 ∧
    (t.mReg.toNat : Int) =
      ((27232 + (if isDigit (extChar s.call (sp + 1)) = true then byteInt (extChar s.call (sp + 1)) - 48
        else if isUpper (extChar s.call (sp + 1)) = true then byteInt (extChar s.call (sp + 1)) - 55 else 38)) * 128
        + s.pwr.toInt + 66) % 2 ^ 22 ∧
    t.phase = phPackb ∧ t = { s with nReg := t.nReg, mReg := t.mReg, phase := t.phase }

/-- FIELD.T2S2 (43_packer.md R226): the digits are not checked, and the 22-bit reduction always applies. -/
def Obligations.FieldTwoSuffix : Prop :=
  ∀ (s : State) (sp : Nat), isFirstSlash s.call sp → ∃ t, exec .fieldT2S2 s = .next t ∧
    (t.nReg.toNat : Int) =
      paddedCode (fun k => canonChar (if k < sp then extChar s.call k else 0x20#8)) % 2 ^ 28 ∧
    (t.mReg.toNat : Int) =
      ((27258 + 10 * (byteInt (extChar s.call (sp + 1)) - 48) + (byteInt (extChar s.call (sp + 2)) - 48)) * 128
        + s.pwr.toInt + 66) % 2 ^ 22 ∧
    t.phase = phPackb ∧ t = { s with nReg := t.nReg, mReg := t.mReg, phase := t.phase }

/-- FIELD.T2P (43_packer.md R229): `p` folds the three characters before the slash, moved one place right when the
third is blank, and the marker tells the two halves of its range apart. That the marker is added after the
multiplication by 128 is the spec's own reading of the document's sentence (decision D33, 90_conflicts.md C8; log 19). -/
def Obligations.FieldPrefix : Prop :=
  ∀ (s : State) (sp : Nat), isFirstSlash s.call sp → ∃ t, exec .fieldT2P s = .next t ∧
    (t.nReg.toNat : Int) = paddedCode (fun k => canonChar (extChar s.call (sp + 1 + k))) % 2 ^ 28 ∧
    (let f : Nat → Byte := fun k => if k < sp then extChar s.call k else 0x20#8
     let p : Int :=
       if f 2 = 0x20#8 ∨ f 2 = 0#8 then 36 * 1369 + charCode (f 0) * 37 + charCode (f 1)
       else charCode (f 0) * 1369 + charCode (f 1) * 37 + charCode (f 2)
     (t.mReg.toNat : Int) =
       (if 32768 ≤ p then (p - 32768) * 128 + s.pwr.toInt + 66 else p * 128 + s.pwr.toInt + 65) % 2 ^ 22) ∧
    t.phase = phPackb ∧ t = { s with nReg := t.nReg, mReg := t.mReg, phase := t.phase }

/-- The three FIELD.T2 operations on a callsign without a slash, which CLASS excludes (43_packer.md R214): the model's
choice (log 12) is that they complete with fields computed from a slash index nothing constrains. -/
def Obligations.FieldWithoutSlashCompletes : Prop :=
  ∀ (s : State) (i : Instr), lacks s.call 0 0x2F#8 → (i = .fieldT2S1 ∨ i = .fieldT2S2 ∨ i = .fieldT2P) →
    ∃ t, exec i s = .next t ∧ t.phase = phPackb ∧
      t = { s with nReg := t.nReg, mReg := t.mReg, phase := t.phase, freeCount := t.freeCount }

/-- FIELD.T3 (43_packer.md R233): the locator rotated left by one character, and the hash beside the power. -/
def Obligations.FieldHashed : Prop :=
  ∀ s : State, ∃ t, exec .fieldT3 s = .next t ∧
    (t.nReg.toNat : Int) =
      sixCode (charCode s.loc[1]) (charCode s.loc[2]) (charCode s.loc[3]) (charCode s.loc[4]) (charCode s.loc[5])
        (charCode s.loc[0]) % 2 ^ 28 ∧
    (t.mReg.toNat : Int) = ((s.hash15.toNat : Int) * 128 - (s.pwr.toInt + 1) + 64) % 2 ^ 22 ∧
    t.phase = phPackb ∧ t = { s with nReg := t.nReg, mReg := t.mReg, phase := t.phase }

/-- The range of `call28` (43_packer.md R217): only six digits 0 reach the least value, only codes 36 the greatest. -/
def Obligations.CallsignCodeRange : Prop :=
  ∀ v : Vector Byte 6, -7570 ≤ call28 v ∧ call28 v ≤ 262905830 ∧
    (call28 v = -7570 ↔ ∀ k : Fin 6, charCode v[k] = 0) ∧ (call28 v = 262905830 ↔ ∀ k : Fin 6, charCode v[k] = 36)

/-- The low seven bits of `M` are the power and the class's marker (30_encoding.md R97), on a normalized identity of
that class. -/
def Obligations.MarkerInLowBits : Prop :=
  ∀ s : State, s.contextNormal →
    (∀ t, exec .fieldT1 s = .next t → (t.mReg.toNat : Int) % 128 = s.pwr.toInt + 64) ∧
    (∀ t sp, isFirstSlash s.call sp → exec .fieldT2S1 s = .next t →
      (t.mReg.toNat : Int) % 128 = s.pwr.toInt + 66) ∧
    (∀ t sp, isFirstSlash s.call sp → exec .fieldT2S2 s = .next t →
      (t.mReg.toNat : Int) % 128 = s.pwr.toInt + 66) ∧
    (∀ t sp, isFirstSlash s.call sp → exec .fieldT2P s = .next t →
      (t.mReg.toNat : Int) % 128 = s.pwr.toInt + 65 ∨ (t.mReg.toNat : Int) % 128 = s.pwr.toInt + 66) ∧
    (∀ t, exec .fieldT3 s = .next t →
      (t.mReg.toNat : Int) % 128 = 63 - s.pwr.toInt ∧ t.mReg.toNat / 128 = s.hash15.toNat)

/-- A Type-1 locator code never wraps: `M[21:7]` is the integer of the four locator characters, 0..32399
(30_encoding.md R97, 43_packer.md R221). -/
def Obligations.LocatorCodeNeverWraps : Prop :=
  ∀ s : State, s.contextNormal → ∃ t, exec .fieldT1 s = .next t ∧
    ((t.mReg.toNat / 128 : Nat) : Int) =
      (179 - 10 * (byteInt s.loc[0] - 65) - (byteInt s.loc[2] - 48)) * 180 + 10 * (byteInt s.loc[1] - 65)
        + (byteInt s.loc[3] - 48) ∧
    t.mReg.toNat / 128 ≤ 32399 ∧
    t = { s with nReg := t.nReg, mReg := t.mReg, phase := phPackb }

/-! ## PACKB -/

/-- PACKB (43_packer.md R240): read as one 88-bit number, most significant byte first, the packet is
`(N·2^22 + M)·2^38`. -/
def Obligations.PacketIsBigEndian : Prop :=
  ∀ (m : BitVec 3) (s : State), ∃ t, exec (.packb m) s = .next t ∧
    t.pkt.toList.foldl (fun acc b => acc * 256 + b.toNat) 0 = (s.nReg.toNat * 2 ^ 22 + s.mReg.toNat) * 2 ^ 38 ∧
    t.phase = phConv ∧ t = { s with pkt := t.pkt, phase := t.phase }

/-- The packet's bit stream (30_encoding.md R96): `N` from its top bit, `M` from its top bit, then zeros. -/
def Obligations.PacketBitStream : Prop :=
  ∀ (m : BitVec 3) (s t : State), exec (.packb m) s = .next t → ∀ k, k < 88 →
    t.pkt[k / 8]?.map (·.getLsbD (7 - k % 8)) =
      some (if k < 28 then s.nReg.getLsbD (27 - k) else if k < 50 then s.mReg.getLsbD (49 - k) else false)

/-! ## CONV -/

/-- CONV in closed form (44_convolutional.md R264, the spec's own inference from the loop of R262, with the zero start of
R261, decision D19; log 19): each output is the exclusive-or of the stream bits its
polynomial taps, and both registers end with the last 32 stream bits. -/
def Obligations.ConvolutionClosedForm : Prop :=
  ∀ (m : BitVec 3) (s : State), ∃ t, exec (.conv m) s = .next t ∧
    (let b : Nat → Bool := fun k => (s.pkt[k / 8]?.getD 0#8).getLsbD (7 - k % 8)
     let taps : Word32 → Nat → Bool := fun poly u =>
       (List.range 32).foldl (fun acc k => acc ^^ (poly.getLsbD k && (decide (k ≤ u) && b (u - k)))) false
     (∀ u, u ≤ 80 → t.sBits[2 * u]? = some (taps 0xF2D05351#32 u) ∧ t.sBits[2 * u + 1]? = some (taps 0xE4613C47#32 u)) ∧
     (∀ k, k < 32 → t.reg0.getLsbD k = b (80 - k)) ∧ t.reg1 = t.reg0) ∧
    t.phase = phIlv ∧ t = { s with sBits := t.sBits, reg0 := t.reg0, reg1 := t.reg1, phase := t.phase }

/-- Bits 6..0 of `PKT[10]` are never read (44_convolutional.md R263): two packets that differ there only convolve to the
same bits. -/
def Obligations.ConvolutionIgnoresTail : Prop :=
  ∀ (m : BitVec 3) (s s' : State), (∀ k : Fin 10, s.pkt[k] = s'.pkt[k]) →
    s.pkt[10].getLsbD 7 = s'.pkt[10].getLsbD 7 →
    ∃ t t', exec (.conv m) s = .next t ∧ exec (.conv m) s' = .next t' ∧
      t.sBits = t'.sBits ∧ t.reg0 = t'.reg0 ∧ t.reg1 = t'.reg1

/-- CONV is linear over GF(2) (44_convolutional.md R264). -/
def Obligations.ConvolutionLinear : Prop :=
  ∀ (m : BitVec 3) (a b c : State), (∀ k : Fin 11, c.pkt[k] = a.pkt[k] ^^^ b.pkt[k]) →
    ∃ ta tb tc, exec (.conv m) a = .next ta ∧ exec (.conv m) b = .next tb ∧ exec (.conv m) c = .next tc ∧
      ∀ i : Fin 162, tc.sBits[i] = (ta.sBits[i] ^^ tb.sBits[i])

/-! ## ILV -/

/-- ILV (45_interleaver.md R281): the reversals of 0..254 that are below 162, in order, are the printed `PERM`, and
`D[PERM[i]] = S[i]`, whatever `D` held. -/
def Obligations.InterleaverFollowsTable : Prop :=
  ∀ (m : BitVec 3) (s : State), ∃ t, exec (.ilv m) s = .next t ∧
    ((List.range 255).map rev8).filter (· < 162) = permTable ∧
    (∀ i : Fin 162, t.dBits[permTable.getD i.val 0]? = some s.sBits[i]) ∧
    t.phase = phMerge ∧ t = { s with dBits := t.dBits, phase := t.phase }

/-- Both tables that the spec prints, computed there from R281 (45_interleaver.md R283, derived): each is what `rev8`
computes, each undoes the other, and after ILV every position of `D` holds the element that `INV` names. -/
def Obligations.InterleaverInverseTable : Prop :=
  permComputed = permTable ∧ invComputed = invTable ∧
  (∀ i : Fin 162, invTable.getD (permTable.getD i.val 0) 162 = i.val ∧
    permTable.getD (invTable.getD i.val 0) 162 = i.val) ∧
  ∀ (m : BitVec 3) (s : State), ∃ t, exec (.ilv m) s = .next t ∧
    ∀ r : Fin 162, s.sBits[invTable.getD r.val 0]? = some t.dBits[r]

/-- The interleaver is a permutation (45_interleaver.md R284): every position is filled from exactly one index, so the
number of ones is kept. -/
def Obligations.InterleaverIsPermutation : Prop :=
  ∀ (m : BitVec 3) (s t : State), exec (.ilv m) s = .next t →
    t.dBits.toList.Perm s.sBits.toList ∧
    ∀ r : Fin 162, ∃! i : Fin 162, permTable.getD i.val 0 = r.val

/-- `rev8` is its own inverse on 0..255, exactly 162 of `j = 0..254` are accepted, the last of them 254, and neighbours
land at least 32 apart (45_interleaver.md R280, R282, R284). -/
def Obligations.BitReversalCounts : Prop :=
  (∀ j : Fin 256, rev8 j.val < 256 ∧ rev8 (rev8 j.val) = j.val) ∧
  ((List.range 255).filter fun j => rev8 j < 162).length = 162 ∧ rev8 254 = 127 ∧ rev8 255 = 255 ∧
  ∀ i : Fin 161, 32 ≤ ((permTable.getD (i.val + 1) 0 : Int) - (permTable.getD i.val 0 : Int)).natAbs

/-! ## MERGE -/

/-- MERGE (46_sync_merger.md R290, R292): `SYM[i] = SYNC[i] + 2·D[i]`, `DONE` and `PHASE` in one step. -/
def Obligations.MergePublishesSymbols : Prop :=
  ∀ (m : BitVec 3) (s : State), ∃ t, exec (.merge m) s = .next t ∧
    (∀ i : Fin 162, t.sym[i].toNat = syncList.getD i.val 0 + 2 * (s.dBits[i]).toNat ∧
      t.sym[i].toNat % 2 = syncList.getD i.val 0 ∧ t.sym[i].toNat / 2 = (s.dBits[i]).toNat) ∧
    t.done = true ∧ t.phase = phIdle ∧ t = { s with sym := t.sym, done := t.done, phase := t.phase }

/-- The checks on the synchronization vector (46_sync_merger.md R291): 162 elements, 63 ones, and its packing. -/
def Obligations.SyncVectorChecks : Prop :=
  syncList.length = 162 ∧ syncList.count 1 = 63 ∧ syncList.count 0 = 99 ∧
  (List.range 21).map (fun k => (List.range 8).foldl (fun acc j => 2 * acc + syncList.getD (8 * k + j) 0) 0) =
    [0xC0, 0x8E, 0x25, 0xE0, 0x25, 0x02, 0xCD, 0x1A, 0x1A, 0xA9, 0x2C, 0x6A, 0x20, 0x93, 0xB3, 0x47, 0x05, 0x30, 0x1A,
      0xC6, 0x00]

/-! ## Host accesses -/

/-- A write of byte `v` to register number `a` does what the pseudocode of 40_encode_sequence.md R135 says. -/
def Obligations.HostWritesFollowMap : Prop :=
  ∀ (a : RegNum) (v : Byte) (s : State),
    exec (decodeAccess (accessWord true a v)) s =
      if a.toNat ≤ 0x00B then .next { s with callIn := s.callIn.setIfInBounds a.toNat v }
      else if 0x010 ≤ a.toNat ∧ a.toNat ≤ 0x015 then
        .next { s with locIn := s.locIn.setIfInBounds (a.toNat - 0x010) v }
      else if a.toNat = 0x018 then .next { s with pwrIn := v }
      else if a.toNat = 0x019 ∧ v.getLsbD 0 = true ∧ s.phase = phIdle then
        .next { s with call := s.callIn, loc := s.locIn, pwr := s.pwrIn, mtype := 0#3, done := false, err := false, errcode := 0#4, phase := phNorm }
      else .next s

/-- A read of register number `a` returns what the pseudocode of 40_encode_sequence.md R136 and R138 says and changes
nothing of the block (20_memory.md R69); a symbol read while `DONE = 0` returns a byte nothing constrains, the
model's choice over refusing it (log 10). -/
def Obligations.HostReadsFollowMap : Prop :=
  ∀ (a : RegNum) (x : Byte) (s : State), ∃ t, exec (decodeAccess (accessWord false a x)) s = .next t ∧
    ((s.done = true ∨ ¬ (0x100 ≤ a.toNat ∧ a.toNat ≤ 0x1A1)) → ∀ free, t.rdata = s.memRead free a) ∧
    t = { s with rdata := t.rdata, freeCount := t.freeCount }

/-- Read after write over the register numbers: an input register reads back the byte last written, every other
number reads as before, `CTRL` apart (10_state.md R22, 40_encode_sequence.md R135, R136). -/
def Obligations.ReadAfterWrite : Prop :=
  ∀ (a b : RegNum) (v free : Byte) (s : State), a.toNat ≠ 0x019 →
    ∃ t, exec (decodeAccess (accessWord true a v)) s = .next t ∧
      t.memRead free b =
        if a = b ∧ (a.toNat ≤ 0x00B ∨ (0x010 ≤ a.toNat ∧ a.toNat ≤ 0x015) ∨ a.toNat = 0x018) then v
        else s.memRead free b

/-- The input writes and the writes without effect, operation by operation (40_encode_sequence.md R135, 20_memory.md
R69). An index above the last register, which no word encodes, writes nothing (log 13). -/
def Obligations.HostWritesComplete : Prop :=
  ∀ s : State,
    (∀ (i : Fin 12) (v : Byte),
      exec (.wrCallIn (BitVec.ofNat 4 i.val) v) s = .next { s with callIn := s.callIn.set i.val v }) ∧
    (∀ (i : Fin 6) (v : Byte),
      exec (.wrLocIn (BitVec.ofNat 3 i.val) v) s = .next { s with locIn := s.locIn.set i.val v }) ∧
    (∀ v, exec (.wrPwrIn v) s = .next { s with pwrIn := v }) ∧
    (∀ x, exec (.wrCtrlNop x) s = .next s) ∧ (∀ a x, exec (.wrIgnored a x) s = .next s) ∧
    (∀ (i : BitVec 4) (v : Byte), 12 ≤ i.toNat → exec (.wrCallIn i v) s = .next s) ∧
    (∀ (i : BitVec 3) (v : Byte), 6 ≤ i.toNat → exec (.wrLocIn i v) s = .next s)

/-- The reads, operation by operation (40_encode_sequence.md R136): only the byte returned is new. -/
def Obligations.HostReadsComplete : Prop :=
  ∀ (s : State) (x : Byte),
    (∀ i : Fin 12, exec (.rdCallIn (BitVec.ofNat 4 i.val) x) s = .next { s with rdata := s.callIn[i] }) ∧
    (∀ i : Fin 6, exec (.rdLocIn (BitVec.ofNat 3 i.val) x) s = .next { s with rdata := s.locIn[i] }) ∧
    exec (.rdPwrIn x) s = .next { s with rdata := s.pwrIn } ∧
    exec (.rdCtrl x) s = .next { s with rdata := 0x00#8 } ∧
    exec (.rdStatus x) s = .next { s with
      rdata := s.errcode ++ 0#1 ++ BitVec.ofBool s.err ++ BitVec.ofBool s.done ++ BitVec.ofBool (s.phase != 0#4) } ∧
    ∀ a, exec (.rdReserved a x) s = .next { s with rdata := 0x00#8 }

/-- RD.SYM (40_encode_sequence.md R138): the symbol as a byte while `DONE = 1`; while `DONE = 0` some byte, with
nothing of the block changed (70_reset_and_hazards.md R338; the model's choice over refusing it, log 10). -/
def Obligations.SymbolReads : Prop :=
  ∀ (s : State) (i : Fin 162) (x : Byte),
    (s.done = true →
      exec (.rdSym (BitVec.ofNat 8 i.val) x) s = .next { s with rdata := BitVec.ofNat 8 (s.sym[i]).toNat }) ∧
    (s.done = false → ∃ t, exec (.rdSym (BitVec.ofNat 8 i.val) x) s = .next t ∧
      t = { s with rdata := t.rdata, freeCount := t.freeCount })

/-- START (40_encode_sequence.md R137): accepted while idle it latches the nineteen inputs and clears the flags in one
action, whatever `CTRL` bits 7:1 are (30_encoding.md R113); while busy it is ignored entirely
(70_reset_and_hazards.md R336). -/
def Obligations.StartLatchesContext : Prop :=
  ∀ (x : BitVec 7) (s : State),
    (s.phase = phIdle → exec (.start x) s = .next { s with
      call := s.callIn, loc := s.locIn, pwr := s.pwrIn, mtype := mtNone, done := false, err := false,
      errcode := 0#4, phase := phNorm }) ∧
    (s.phase ≠ phIdle → exec (.start x) s = .next s)

/-- Reserved register numbers (20_memory.md R75): a read returns 0x00, a write is ignored, neither has any other
effect. -/
def Obligations.ReservedNumbersInert : Prop :=
  ∀ (a : RegNum) (v : Byte) (s : State),
    ((0x00C ≤ a.toNat ∧ a.toNat ≤ 0x00F) ∨ (0x016 ≤ a.toNat ∧ a.toNat ≤ 0x017) ∨
      (0x01B ≤ a.toNat ∧ a.toNat ≤ 0x0FF) ∨ 0x1A2 ≤ a.toNat) →
    exec (decodeAccess (accessWord true a v)) s = .next s ∧
    exec (decodeAccess (accessWord false a v)) s = .next { s with rdata := 0x00#8 }

/-- The only values a read of `STATUS` can return are 0x00, 0x01, 0x02 and 0x14 (10_state.md R36), and 0x01 exactly
while busy. -/
def Obligations.StatusValues : Prop :=
  ∀ s : State, s.Inv →
    (s.status = 0x00#8 ∨ s.status = 0x01#8 ∨ s.status = 0x02#8 ∨ s.status = 0x14#8) ∧
    (s.status = 0x01#8 ↔ s.phase ≠ phIdle)

/-! ## RESET -/

/-- RESET (70_reset_and_hazards.md R330): the values the spec gives, from every state, and `STATUS` reads 0x00; the
model keeps the turns to come, the host's byte and the free-value count (log 1, 8, 9). -/
def Obligations.ResetClears : Prop :=
  ∀ s : State, ∃ t, exec .reset s = .next t ∧
    (∀ i : Fin 12, t.callIn[i] = 0#8) ∧ (∀ i : Fin 6, t.locIn[i] = 0#8) ∧ t.pwrIn = 0#8 ∧
    t.phase = phIdle ∧ t.mtype = mtNone ∧ t.done = false ∧ t.err = false ∧ t.errcode = 0#4 ∧ t.status = 0x00#8 ∧
    t.agenda = s.agenda ∧ t.rdata = s.rdata ∧ t.freeCount = s.freeCount

/-! ## Rules of the whole machine -/

/-- Who writes which register (10_state.md R21, the column "written by"): an operation other than RESET that changes a
register is one of those the table lets write it. -/
def Obligations.RegistersWrittenOnlyBy : Prop :=
  ∀ (i : Instr) (s t : State), exec i s = .next t → i ≠ .reset →
    (t.callIn ≠ s.callIn → ∃ k v, i = .wrCallIn k v) ∧ (t.locIn ≠ s.locIn → ∃ k v, i = .wrLocIn k v) ∧
    (t.pwrIn ≠ s.pwrIn → ∃ v, i = .wrPwrIn v) ∧
    ((t.call ≠ s.call ∨ t.loc ≠ s.loc ∨ t.pwr ≠ s.pwr) → (∃ x, i = .start x) ∨ ∃ m, i = .norm m) ∧
    (t.mtype ≠ s.mtype → (∃ x, i = .start x) ∨ ∃ m, i = .classify m) ∧
    (t.done ≠ s.done → (∃ x, i = .start x) ∨ ∃ m, i = .merge m) ∧
    ((t.err ≠ s.err ∨ t.errcode ≠ s.errcode) → (∃ x, i = .start x) ∨ ∃ m, i = .classify m) ∧
    ((t.ha ≠ s.ha ∨ t.hb ≠ s.hb ∨ t.hc ≠ s.hc ∨ t.hash15 ≠ s.hash15) → i = .hash) ∧
    ((t.nReg ≠ s.nReg ∨ t.mReg ≠ s.mReg) →
      i = .fieldT1 ∨ i = .fieldT2S1 ∨ i = .fieldT2S2 ∨ i = .fieldT2P ∨ i = .fieldT3) ∧
    (t.pkt ≠ s.pkt → ∃ m, i = .packb m) ∧
    ((t.reg0 ≠ s.reg0 ∨ t.reg1 ≠ s.reg1 ∨ t.sBits ≠ s.sBits) → ∃ m, i = .conv m) ∧
    (t.dBits ≠ s.dBits → ∃ m, i = .ilv m) ∧ (t.sym ≠ s.sym → ∃ m, i = .merge m)

/-- The transition relation of `PHASE` (40_encode_sequence.md R132), from every state that meets the invariant: each
change of `PHASE` is a row of the relation, with the row's condition and its other writes. -/
def Obligations.PhaseTransitions : Prop :=
  ∀ s t : State, s.Inv → step s = .next t → t.phase ≠ s.phase →
    (s.phase = phIdle ∧ t.phase = phNorm ∧
      (∃ w x, s.agenda.head? = some (.host w) ∧ decodeAccess w = .start x) ∧
      t.call = s.callIn ∧ t.loc = s.locIn ∧ t.pwr = s.pwrIn ∧
      t.mtype = mtNone ∧ t.done = false ∧ t.err = false ∧ t.errcode = 0#4) ∨
    (s.phase = phNorm ∧ t.phase = phClass) ∨
    (s.phase = phClass ∧ t.phase = phField ∧ t.mtype ≠ mtT3) ∨
    (s.phase = phClass ∧ t.phase = phHash ∧ t.mtype = mtT3 ∧ ∃ g, isFirstClose s.call g) ∨
    (s.phase = phClass ∧ t.phase = phIdle ∧ t.mtype = mtT3 ∧ lacks s.call 1 0x3E#8 ∧ t.err = true ∧ t.errcode = 1#4) ∨
    (s.phase = phHash ∧ t.phase = phField) ∨ (s.phase = phField ∧ t.phase = phPackb) ∨
    (s.phase = phPackb ∧ t.phase = phConv) ∨ (s.phase = phConv ∧ t.phase = phIlv) ∨
    (s.phase = phIlv ∧ t.phase = phMerge) ∨ (s.phase = phMerge ∧ t.phase = phIdle ∧ t.done = true) ∨
    (s.agenda.head? = some .reset ∧ t.phase = phIdle ∧ t.mtype = mtNone ∧ t.done = false ∧ t.err = false ∧
      t.errcode = 0#4)

/-- While `DONE` stays 1 the symbols stay (20_memory.md R73, 70_reset_and_hazards.md R338), and only an accepted START
or reset takes `DONE` away. -/
def Obligations.SymbolsStayWhileDone : Prop :=
  ∀ s t : State, s.Inv → s.done = true → step s = .next t →
    (t.done = true → t.sym = s.sym) ∧
    (t.done = false → s.agenda.head? = some .reset ∨
      ∃ w x, s.agenda.head? = some (.host w) ∧ decodeAccess w = .start x ∧ t.phase = phNorm)

/-- A host access while busy changes nothing the sequencer reads or writes (10_state.md R48, 70_reset_and_hazards.md
R336, R337), and it completes. -/
def Obligations.HostCannotTouchEncode : Prop :=
  ∀ (s : State) (w : Hacc) (rest : List Turn), s.agenda = .host w :: rest → s.phase ≠ phIdle →
    ∃ t, step s = .next t ∧ s.sameEncode t ∧ t.agenda = rest

/-- The sequencer reads only the context and its own registers (10_state.md R25, 20_memory.md R72): from two states
that agree on those, whatever the input registers hold, its steps agree, and it leaves the input registers alone. Its
turn is a listed one or, the model's choice (log 1), that of an empty agenda. -/
def Obligations.SequencerReadsOnlyContext : Prop :=
  ∀ s s' t : State, s.sameEncode s' → s.freeCount = s'.freeCount →
    (s.agenda = [] ∨ s.agenda.head? = some .seq) → (s'.agenda = [] ∨ s'.agenda.head? = some .seq) →
    step s = .next t →
    t.callIn = s.callIn ∧ t.locIn = s.locIn ∧ t.pwrIn = s.pwrIn ∧
    ∃ t', step s' = .next t' ∧ t.sameEncode t'

/-- From an accepted START the sequencer takes exactly 7 steps to `DONE`, 8 for Type 3, 2 to the error
(40_encode_sequence.md R133): it is busy before the last of them and idle after it. -/
def Obligations.EncodeTakesExactSteps : Prop :=
  ∀ (s : State) (x : BitVec 7) (n : Nat), s.phase = phIdle →
    s.agenda = .host (accessWord true 0x019#9 (x ++ 1#1)) :: List.replicate n .seq →
    ∀ k, k ≤ n → ∃ t, Sys2Proof.core.run (1 + k) s = .next t ∧
      (t.busy = true ↔ k < encodeSteps s.callIn) ∧
      (t.done = true ↔ encodeSteps s.callIn ≠ 2 ∧ encodeSteps s.callIn ≤ k) ∧
      (t.err = true ↔ encodeSteps s.callIn = 2 ∧ 2 ≤ k)

/-- The encode is the function ENC of the nineteen bytes latched at START (40_encode_sequence.md R130), under every
interleaving of host accesses that neither reset the block nor write START (20_memory.md R72, R73,
70_reset_and_hazards.md R337): once the sequencer has had eight turns, the block is idle with the symbols of ENC, or
with the error where ENC has none. -/
def Obligations.EncodeIsEnc : Prop :=
  ∀ (s : State) (x : BitVec 7) (turns : List Turn), s.phase = phIdle →
    s.agenda = .host (accessWord true 0x019#9 (x ++ 1#1)) :: turns →
    (∀ u ∈ turns, u.quiet = true) → 8 ≤ seqCount turns →
    ∃ t, Sys2Proof.core.run (1 + turns.length) s = .next t ∧ t.phase = phIdle ∧
      (∀ y, enc s.callIn s.locIn s.pwrIn = some y → t.done = true ∧ t.err = false ∧ t.errcode = 0#4 ∧ t.sym = y) ∧
      (enc s.callIn s.locIn s.pwrIn = none → t.done = false ∧ t.err = true ∧ t.errcode = 1#4)

/-- Nothing of an earlier encode survives (40_encode_sequence.md R130, 70_reset_and_hazards.md R331): two idle states
with the same inputs, whatever their other registers hold, look the same to the host after the same START and the same
further turns, host accesses and resets among them. Once the turns listed are used up the further steps are the
sequencer's: that an empty agenda lets it move is the model's choice (log 1). -/
def Obligations.EncodeForgetsHistory : Prop :=
  ∀ (s s' : State) (x : BitVec 7) (turns : List Turn), s.phase = phIdle → s'.phase = phIdle →
    s.callIn = s'.callIn → s.locIn = s'.locIn → s.pwrIn = s'.pwrIn →
    s.agenda = .host (accessWord true 0x019#9 (x ++ 1#1)) :: turns → s'.agenda = s.agenda →
    ∀ k, ∃ t t', Sys2Proof.core.run (1 + k) s = .next t ∧ Sys2Proof.core.run (1 + k) s' = .next t' ∧
      t.sameToHost t'

/-! ## Host notation -/

/-- CALLSIGN, LOCATOR and POWER (30_encoding.md R119): their nineteen writes leave the text in the input registers,
padded with 0x00, whatever the registers held and whatever the sequencer is doing. -/
def Obligations.IdentityWritesLand : Prop :=
  ∀ (s : State) (c l : List Byte) (p : Int), -128 ≤ p → p ≤ 127 →
    s.agenda = callsignTurns c ++ locatorTurns l ++ [powerTurn p] →
    ∃ t, Sys2Proof.core.run 19 s = .next t ∧
      (∀ i : Fin 12, t.callIn[i] = c.getD i.val 0#8) ∧ (∀ i : Fin 6, t.locIn[i] = l.getD i.val 0#8) ∧
      t.pwrIn.toInt = p ∧ t.agenda = [] ∧
      t = { s with callIn := t.callIn, locIn := t.locIn, pwrIn := t.pwrIn, agenda := t.agenda }
end

