-- ==== Sys2Proof/Laws/Encoding.lean ====
section
/-! SUPPORT. The fields of the two word formats: a word is its fields, and its fields are the word's. -/

namespace Sys2Proof

/-! ## Format H -/

theorem accessWord_getLsbD (we : Bool) (a : RegNum) (d : Byte) (j : Nat) :
    (accessWord we a d).getLsbD j =
      if j < 8 then d.getLsbD j else if j < 17 then a.getLsbD (j - 8) else (decide (j = 17) && we) := by
  change (BitVec.ofBool we ++ a ++ d).getLsbD j = _
  rw [BitVec.getLsbD_append, BitVec.getLsbD_append, BitVec.getLsbD_ofBool]
  by_cases h8 : j < 8
  · simp [h8]
  · by_cases h17 : j < 17
    · simp [h8, h17, show j - 8 < 9 by omega]
    · simp [h8, h17, show ¬ j - 8 < 9 by omega, show (j - 8 - 9 = 0) = (j = 17) by simp; omega]

@[simp] theorem weField_accessWord (we : Bool) (a : RegNum) (d : Byte) : weField (accessWord we a d) = we := by
  rw [weField, accessWord_getLsbD]; simp

@[simp] theorem addrField_accessWord (we : Bool) (a : RegNum) (d : Byte) : addrField (accessWord we a d) = a := by
  apply BitVec.eq_of_getLsbD_eq
  intro j hj
  simp [addrField, accessWord_getLsbD, hj]
  omega

@[simp] theorem wdataField_accessWord (we : Bool) (a : RegNum) (d : Byte) :
    wdataField (accessWord we a d) = d := by
  apply BitVec.eq_of_getLsbD_eq
  intro j hj
  simp [wdataField, accessWord_getLsbD, hj]

/-- A host access word is made of its three fields (30_encoding.md R106). -/
theorem accessWord_fields (w : Hacc) : accessWord (weField w) (addrField w) (wdataField w) = w := by
  apply BitVec.eq_of_getLsbD_eq
  intro j hj
  rw [accessWord_getLsbD]
  by_cases h8 : j < 8
  · simp [wdataField, h8]
  · by_cases h17 : j < 17
    · simp [addrField, h8, h17, show j - 8 < 9 by omega, show 8 + (j - 8) = j by omega]
    · obtain rfl : j = 17 := by omega
      simp [weField]

theorem accessWord_inj {we we' : Bool} {a a' : RegNum} {d d' : Byte}
    (h : accessWord we a d = accessWord we' a' d') : we = we' ∧ a = a' ∧ d = d' := by
  refine ⟨?_, ?_, ?_⟩
  · simpa using congrArg weField h
  · simpa using congrArg addrField h
  · simpa using congrArg wdataField h

@[simp] theorem decodeAccess_write (a : RegNum) (v : Byte) :
    decodeAccess (accessWord true a v) = decodeWrite a v := by simp [decodeAccess]

@[simp] theorem decodeAccess_read (a : RegNum) (x : Byte) :
    decodeAccess (accessWord false a x) = decodeRead a x := by simp [decodeAccess]

/-! ## Format S -/

@[simp] theorem phaseField_append (p : BitVec 4) (m : BitVec 3) : phaseField (p ++ m) = p := by
  revert p m; decide

@[simp] theorem mtypeField_append (p : BitVec 4) (m : BitVec 3) : mtypeField (p ++ m) = m := by
  revert p m; decide

/-- A select word is made of its two fields (30_encoding.md R105). -/
theorem select_fields (w : OpSel) : phaseField w ++ mtypeField w = w := by
  revert w; decide

/-! ## Bytes -/

/-- Reading the bytes of a word gives the word. -/
@[simp] theorem wordOfBytes_bytesOfWord (w : OpWord) : wordOfBytes (bytesOfWord w) = .ok w := by
  cases w with
  | resetInput => rfl
  | select w =>
    have h : (w.setWidth 8).getLsbD 7 = false := by simp
    have h' : (w.setWidth 8).extractLsb' 0 7 = w := by
      apply BitVec.eq_of_getLsbD_eq
      intro j hj
      simp [hj, show j < 8 by omega]
    simp [bytesOfWord, wordOfBytes, h']
  | access w =>
    have h : ((w.extractLsb' 16 2).setWidth 8).extractLsb' 2 6 = 0#6 := by
      apply BitVec.eq_of_getLsbD_eq
      intro j hj
      simp
    have h' : ((w.extractLsb' 16 2).setWidth 8).extractLsb' 0 2 ++ w.extractLsb' 8 8 ++ w.extractLsb' 0 8 = w := by
      apply BitVec.eq_of_getLsbD_eq
      intro j hj
      rw [BitVec.getLsbD_append, BitVec.getLsbD_append]
      by_cases h8 : j < 8
      · simp [h8]
      · by_cases h16 : j - 8 < 8
        · simp [h8, h16, show 8 + (j - 8) = j by omega]
        · have : j - 8 - 8 < 2 := by omega
          simp [h8, h16, this, show j - 8 - 8 < 8 by omega, show 16 + (j - 8 - 8) = j by omega]
    simp [bytesOfWord, wordOfBytes, h, h']

end Sys2Proof
end

