-- ==== Sys2Proof/Laws/State.lean ====
section
/-! SUPPORT. One lemma per field per update of `State`, true by rfl, so that no proof unfolds a record update. -/

namespace Sys2Proof.Machine

/-! ## `goto` -/

section
variable (s : State) (p : BitVec 4)

@[simp] theorem State.goto_callIn : (s.goto p).callIn = s.callIn := rfl
@[simp] theorem State.goto_locIn : (s.goto p).locIn = s.locIn := rfl
@[simp] theorem State.goto_pwrIn : (s.goto p).pwrIn = s.pwrIn := rfl
@[simp] theorem State.goto_call : (s.goto p).call = s.call := rfl
@[simp] theorem State.goto_loc : (s.goto p).loc = s.loc := rfl
@[simp] theorem State.goto_pwr : (s.goto p).pwr = s.pwr := rfl
@[simp] theorem State.goto_phase : (s.goto p).phase = p := rfl
@[simp] theorem State.goto_mtype : (s.goto p).mtype = s.mtype := rfl
@[simp] theorem State.goto_done : (s.goto p).done = s.done := rfl
@[simp] theorem State.goto_err : (s.goto p).err = s.err := rfl
@[simp] theorem State.goto_errcode : (s.goto p).errcode = s.errcode := rfl
@[simp] theorem State.goto_ha : (s.goto p).ha = s.ha := rfl
@[simp] theorem State.goto_hb : (s.goto p).hb = s.hb := rfl
@[simp] theorem State.goto_hc : (s.goto p).hc = s.hc := rfl
@[simp] theorem State.goto_hash15 : (s.goto p).hash15 = s.hash15 := rfl
@[simp] theorem State.goto_nReg : (s.goto p).nReg = s.nReg := rfl
@[simp] theorem State.goto_mReg : (s.goto p).mReg = s.mReg := rfl
@[simp] theorem State.goto_pkt : (s.goto p).pkt = s.pkt := rfl
@[simp] theorem State.goto_reg0 : (s.goto p).reg0 = s.reg0 := rfl
@[simp] theorem State.goto_reg1 : (s.goto p).reg1 = s.reg1 := rfl
@[simp] theorem State.goto_sBits : (s.goto p).sBits = s.sBits := rfl
@[simp] theorem State.goto_dBits : (s.goto p).dBits = s.dBits := rfl
@[simp] theorem State.goto_sym : (s.goto p).sym = s.sym := rfl
@[simp] theorem State.goto_agenda : (s.goto p).agenda = s.agenda := rfl
@[simp] theorem State.goto_rdata : (s.goto p).rdata = s.rdata := rfl
@[simp] theorem State.goto_freeCount : (s.goto p).freeCount = s.freeCount := rfl

end

/-! ## `writeCallIn` -/

section
variable (s : State) (i : Nat) (v : Byte)

@[simp] theorem State.writeCallIn_callIn : (s.writeCallIn i v).callIn = s.callIn.setIfInBounds i v := rfl
@[simp] theorem State.writeCallIn_locIn : (s.writeCallIn i v).locIn = s.locIn := rfl
@[simp] theorem State.writeCallIn_pwrIn : (s.writeCallIn i v).pwrIn = s.pwrIn := rfl
@[simp] theorem State.writeCallIn_call : (s.writeCallIn i v).call = s.call := rfl
@[simp] theorem State.writeCallIn_loc : (s.writeCallIn i v).loc = s.loc := rfl
@[simp] theorem State.writeCallIn_pwr : (s.writeCallIn i v).pwr = s.pwr := rfl
@[simp] theorem State.writeCallIn_phase : (s.writeCallIn i v).phase = s.phase := rfl
@[simp] theorem State.writeCallIn_mtype : (s.writeCallIn i v).mtype = s.mtype := rfl
@[simp] theorem State.writeCallIn_done : (s.writeCallIn i v).done = s.done := rfl
@[simp] theorem State.writeCallIn_err : (s.writeCallIn i v).err = s.err := rfl
@[simp] theorem State.writeCallIn_errcode : (s.writeCallIn i v).errcode = s.errcode := rfl
@[simp] theorem State.writeCallIn_ha : (s.writeCallIn i v).ha = s.ha := rfl
@[simp] theorem State.writeCallIn_hb : (s.writeCallIn i v).hb = s.hb := rfl
@[simp] theorem State.writeCallIn_hc : (s.writeCallIn i v).hc = s.hc := rfl
@[simp] theorem State.writeCallIn_hash15 : (s.writeCallIn i v).hash15 = s.hash15 := rfl
@[simp] theorem State.writeCallIn_nReg : (s.writeCallIn i v).nReg = s.nReg := rfl
@[simp] theorem State.writeCallIn_mReg : (s.writeCallIn i v).mReg = s.mReg := rfl
@[simp] theorem State.writeCallIn_pkt : (s.writeCallIn i v).pkt = s.pkt := rfl
@[simp] theorem State.writeCallIn_reg0 : (s.writeCallIn i v).reg0 = s.reg0 := rfl
@[simp] theorem State.writeCallIn_reg1 : (s.writeCallIn i v).reg1 = s.reg1 := rfl
@[simp] theorem State.writeCallIn_sBits : (s.writeCallIn i v).sBits = s.sBits := rfl
@[simp] theorem State.writeCallIn_dBits : (s.writeCallIn i v).dBits = s.dBits := rfl
@[simp] theorem State.writeCallIn_sym : (s.writeCallIn i v).sym = s.sym := rfl
@[simp] theorem State.writeCallIn_agenda : (s.writeCallIn i v).agenda = s.agenda := rfl
@[simp] theorem State.writeCallIn_rdata : (s.writeCallIn i v).rdata = s.rdata := rfl
@[simp] theorem State.writeCallIn_freeCount : (s.writeCallIn i v).freeCount = s.freeCount := rfl

end

/-! ## `writeLocIn` -/

section
variable (s : State) (i : Nat) (v : Byte)

@[simp] theorem State.writeLocIn_callIn : (s.writeLocIn i v).callIn = s.callIn := rfl
@[simp] theorem State.writeLocIn_locIn : (s.writeLocIn i v).locIn = s.locIn.setIfInBounds i v := rfl
@[simp] theorem State.writeLocIn_pwrIn : (s.writeLocIn i v).pwrIn = s.pwrIn := rfl
@[simp] theorem State.writeLocIn_call : (s.writeLocIn i v).call = s.call := rfl
@[simp] theorem State.writeLocIn_loc : (s.writeLocIn i v).loc = s.loc := rfl
@[simp] theorem State.writeLocIn_pwr : (s.writeLocIn i v).pwr = s.pwr := rfl
@[simp] theorem State.writeLocIn_phase : (s.writeLocIn i v).phase = s.phase := rfl
@[simp] theorem State.writeLocIn_mtype : (s.writeLocIn i v).mtype = s.mtype := rfl
@[simp] theorem State.writeLocIn_done : (s.writeLocIn i v).done = s.done := rfl
@[simp] theorem State.writeLocIn_err : (s.writeLocIn i v).err = s.err := rfl
@[simp] theorem State.writeLocIn_errcode : (s.writeLocIn i v).errcode = s.errcode := rfl
@[simp] theorem State.writeLocIn_ha : (s.writeLocIn i v).ha = s.ha := rfl
@[simp] theorem State.writeLocIn_hb : (s.writeLocIn i v).hb = s.hb := rfl
@[simp] theorem State.writeLocIn_hc : (s.writeLocIn i v).hc = s.hc := rfl
@[simp] theorem State.writeLocIn_hash15 : (s.writeLocIn i v).hash15 = s.hash15 := rfl
@[simp] theorem State.writeLocIn_nReg : (s.writeLocIn i v).nReg = s.nReg := rfl
@[simp] theorem State.writeLocIn_mReg : (s.writeLocIn i v).mReg = s.mReg := rfl
@[simp] theorem State.writeLocIn_pkt : (s.writeLocIn i v).pkt = s.pkt := rfl
@[simp] theorem State.writeLocIn_reg0 : (s.writeLocIn i v).reg0 = s.reg0 := rfl
@[simp] theorem State.writeLocIn_reg1 : (s.writeLocIn i v).reg1 = s.reg1 := rfl
@[simp] theorem State.writeLocIn_sBits : (s.writeLocIn i v).sBits = s.sBits := rfl
@[simp] theorem State.writeLocIn_dBits : (s.writeLocIn i v).dBits = s.dBits := rfl
@[simp] theorem State.writeLocIn_sym : (s.writeLocIn i v).sym = s.sym := rfl
@[simp] theorem State.writeLocIn_agenda : (s.writeLocIn i v).agenda = s.agenda := rfl
@[simp] theorem State.writeLocIn_rdata : (s.writeLocIn i v).rdata = s.rdata := rfl
@[simp] theorem State.writeLocIn_freeCount : (s.writeLocIn i v).freeCount = s.freeCount := rfl

end

/-! ## `writePwrIn` -/

section
variable (s : State) (v : Byte)

@[simp] theorem State.writePwrIn_callIn : (s.writePwrIn v).callIn = s.callIn := rfl
@[simp] theorem State.writePwrIn_locIn : (s.writePwrIn v).locIn = s.locIn := rfl
@[simp] theorem State.writePwrIn_pwrIn : (s.writePwrIn v).pwrIn = v := rfl
@[simp] theorem State.writePwrIn_call : (s.writePwrIn v).call = s.call := rfl
@[simp] theorem State.writePwrIn_loc : (s.writePwrIn v).loc = s.loc := rfl
@[simp] theorem State.writePwrIn_pwr : (s.writePwrIn v).pwr = s.pwr := rfl
@[simp] theorem State.writePwrIn_phase : (s.writePwrIn v).phase = s.phase := rfl
@[simp] theorem State.writePwrIn_mtype : (s.writePwrIn v).mtype = s.mtype := rfl
@[simp] theorem State.writePwrIn_done : (s.writePwrIn v).done = s.done := rfl
@[simp] theorem State.writePwrIn_err : (s.writePwrIn v).err = s.err := rfl
@[simp] theorem State.writePwrIn_errcode : (s.writePwrIn v).errcode = s.errcode := rfl
@[simp] theorem State.writePwrIn_ha : (s.writePwrIn v).ha = s.ha := rfl
@[simp] theorem State.writePwrIn_hb : (s.writePwrIn v).hb = s.hb := rfl
@[simp] theorem State.writePwrIn_hc : (s.writePwrIn v).hc = s.hc := rfl
@[simp] theorem State.writePwrIn_hash15 : (s.writePwrIn v).hash15 = s.hash15 := rfl
@[simp] theorem State.writePwrIn_nReg : (s.writePwrIn v).nReg = s.nReg := rfl
@[simp] theorem State.writePwrIn_mReg : (s.writePwrIn v).mReg = s.mReg := rfl
@[simp] theorem State.writePwrIn_pkt : (s.writePwrIn v).pkt = s.pkt := rfl
@[simp] theorem State.writePwrIn_reg0 : (s.writePwrIn v).reg0 = s.reg0 := rfl
@[simp] theorem State.writePwrIn_reg1 : (s.writePwrIn v).reg1 = s.reg1 := rfl
@[simp] theorem State.writePwrIn_sBits : (s.writePwrIn v).sBits = s.sBits := rfl
@[simp] theorem State.writePwrIn_dBits : (s.writePwrIn v).dBits = s.dBits := rfl
@[simp] theorem State.writePwrIn_sym : (s.writePwrIn v).sym = s.sym := rfl
@[simp] theorem State.writePwrIn_agenda : (s.writePwrIn v).agenda = s.agenda := rfl
@[simp] theorem State.writePwrIn_rdata : (s.writePwrIn v).rdata = s.rdata := rfl
@[simp] theorem State.writePwrIn_freeCount : (s.writePwrIn v).freeCount = s.freeCount := rfl

end

/-! ## `latchContext` -/

section
variable (s : State)

@[simp] theorem State.latchContext_callIn : s.latchContext.callIn = s.callIn := rfl
@[simp] theorem State.latchContext_locIn : s.latchContext.locIn = s.locIn := rfl
@[simp] theorem State.latchContext_pwrIn : s.latchContext.pwrIn = s.pwrIn := rfl
@[simp] theorem State.latchContext_call : s.latchContext.call = s.callIn := rfl
@[simp] theorem State.latchContext_loc : s.latchContext.loc = s.locIn := rfl
@[simp] theorem State.latchContext_pwr : s.latchContext.pwr = s.pwrIn := rfl
@[simp] theorem State.latchContext_phase : s.latchContext.phase = s.phase := rfl
@[simp] theorem State.latchContext_mtype : s.latchContext.mtype = s.mtype := rfl
@[simp] theorem State.latchContext_done : s.latchContext.done = s.done := rfl
@[simp] theorem State.latchContext_err : s.latchContext.err = s.err := rfl
@[simp] theorem State.latchContext_errcode : s.latchContext.errcode = s.errcode := rfl
@[simp] theorem State.latchContext_ha : s.latchContext.ha = s.ha := rfl
@[simp] theorem State.latchContext_hb : s.latchContext.hb = s.hb := rfl
@[simp] theorem State.latchContext_hc : s.latchContext.hc = s.hc := rfl
@[simp] theorem State.latchContext_hash15 : s.latchContext.hash15 = s.hash15 := rfl
@[simp] theorem State.latchContext_nReg : s.latchContext.nReg = s.nReg := rfl
@[simp] theorem State.latchContext_mReg : s.latchContext.mReg = s.mReg := rfl
@[simp] theorem State.latchContext_pkt : s.latchContext.pkt = s.pkt := rfl
@[simp] theorem State.latchContext_reg0 : s.latchContext.reg0 = s.reg0 := rfl
@[simp] theorem State.latchContext_reg1 : s.latchContext.reg1 = s.reg1 := rfl
@[simp] theorem State.latchContext_sBits : s.latchContext.sBits = s.sBits := rfl
@[simp] theorem State.latchContext_dBits : s.latchContext.dBits = s.dBits := rfl
@[simp] theorem State.latchContext_sym : s.latchContext.sym = s.sym := rfl
@[simp] theorem State.latchContext_agenda : s.latchContext.agenda = s.agenda := rfl
@[simp] theorem State.latchContext_rdata : s.latchContext.rdata = s.rdata := rfl
@[simp] theorem State.latchContext_freeCount : s.latchContext.freeCount = s.freeCount := rfl

end

/-! ## `writeFields` -/

section
variable (s : State) (n m : Int)

@[simp] theorem State.writeFields_callIn : (s.writeFields n m).callIn = s.callIn := rfl
@[simp] theorem State.writeFields_locIn : (s.writeFields n m).locIn = s.locIn := rfl
@[simp] theorem State.writeFields_pwrIn : (s.writeFields n m).pwrIn = s.pwrIn := rfl
@[simp] theorem State.writeFields_call : (s.writeFields n m).call = s.call := rfl
@[simp] theorem State.writeFields_loc : (s.writeFields n m).loc = s.loc := rfl
@[simp] theorem State.writeFields_pwr : (s.writeFields n m).pwr = s.pwr := rfl
@[simp] theorem State.writeFields_phase : (s.writeFields n m).phase = s.phase := rfl
@[simp] theorem State.writeFields_mtype : (s.writeFields n m).mtype = s.mtype := rfl
@[simp] theorem State.writeFields_done : (s.writeFields n m).done = s.done := rfl
@[simp] theorem State.writeFields_err : (s.writeFields n m).err = s.err := rfl
@[simp] theorem State.writeFields_errcode : (s.writeFields n m).errcode = s.errcode := rfl
@[simp] theorem State.writeFields_ha : (s.writeFields n m).ha = s.ha := rfl
@[simp] theorem State.writeFields_hb : (s.writeFields n m).hb = s.hb := rfl
@[simp] theorem State.writeFields_hc : (s.writeFields n m).hc = s.hc := rfl
@[simp] theorem State.writeFields_hash15 : (s.writeFields n m).hash15 = s.hash15 := rfl
@[simp] theorem State.writeFields_nReg : (s.writeFields n m).nReg = BitVec.ofInt 28 n := rfl
@[simp] theorem State.writeFields_mReg : (s.writeFields n m).mReg = BitVec.ofInt 22 m := rfl
@[simp] theorem State.writeFields_pkt : (s.writeFields n m).pkt = s.pkt := rfl
@[simp] theorem State.writeFields_reg0 : (s.writeFields n m).reg0 = s.reg0 := rfl
@[simp] theorem State.writeFields_reg1 : (s.writeFields n m).reg1 = s.reg1 := rfl
@[simp] theorem State.writeFields_sBits : (s.writeFields n m).sBits = s.sBits := rfl
@[simp] theorem State.writeFields_dBits : (s.writeFields n m).dBits = s.dBits := rfl
@[simp] theorem State.writeFields_sym : (s.writeFields n m).sym = s.sym := rfl
@[simp] theorem State.writeFields_agenda : (s.writeFields n m).agenda = s.agenda := rfl
@[simp] theorem State.writeFields_rdata : (s.writeFields n m).rdata = s.rdata := rfl
@[simp] theorem State.writeFields_freeCount : (s.writeFields n m).freeCount = s.freeCount := rfl

end

/-! ## `writeHash` -/

section
variable (s : State) (abc : Word32 × Word32 × Word32)

@[simp] theorem State.writeHash_callIn : (s.writeHash abc).callIn = s.callIn := rfl
@[simp] theorem State.writeHash_locIn : (s.writeHash abc).locIn = s.locIn := rfl
@[simp] theorem State.writeHash_pwrIn : (s.writeHash abc).pwrIn = s.pwrIn := rfl
@[simp] theorem State.writeHash_call : (s.writeHash abc).call = s.call := rfl
@[simp] theorem State.writeHash_loc : (s.writeHash abc).loc = s.loc := rfl
@[simp] theorem State.writeHash_pwr : (s.writeHash abc).pwr = s.pwr := rfl
@[simp] theorem State.writeHash_phase : (s.writeHash abc).phase = s.phase := rfl
@[simp] theorem State.writeHash_mtype : (s.writeHash abc).mtype = s.mtype := rfl
@[simp] theorem State.writeHash_done : (s.writeHash abc).done = s.done := rfl
@[simp] theorem State.writeHash_err : (s.writeHash abc).err = s.err := rfl
@[simp] theorem State.writeHash_errcode : (s.writeHash abc).errcode = s.errcode := rfl
@[simp] theorem State.writeHash_ha : (s.writeHash abc).ha = abc.1 := rfl
@[simp] theorem State.writeHash_hb : (s.writeHash abc).hb = abc.2.1 := rfl
@[simp] theorem State.writeHash_hc : (s.writeHash abc).hc = abc.2.2 := rfl
@[simp] theorem State.writeHash_hash15 : (s.writeHash abc).hash15 = abc.2.2.extractLsb' 0 15 := rfl
@[simp] theorem State.writeHash_nReg : (s.writeHash abc).nReg = s.nReg := rfl
@[simp] theorem State.writeHash_mReg : (s.writeHash abc).mReg = s.mReg := rfl
@[simp] theorem State.writeHash_pkt : (s.writeHash abc).pkt = s.pkt := rfl
@[simp] theorem State.writeHash_reg0 : (s.writeHash abc).reg0 = s.reg0 := rfl
@[simp] theorem State.writeHash_reg1 : (s.writeHash abc).reg1 = s.reg1 := rfl
@[simp] theorem State.writeHash_sBits : (s.writeHash abc).sBits = s.sBits := rfl
@[simp] theorem State.writeHash_dBits : (s.writeHash abc).dBits = s.dBits := rfl
@[simp] theorem State.writeHash_sym : (s.writeHash abc).sym = s.sym := rfl
@[simp] theorem State.writeHash_agenda : (s.writeHash abc).agenda = s.agenda := rfl
@[simp] theorem State.writeHash_rdata : (s.writeHash abc).rdata = s.rdata := rfl
@[simp] theorem State.writeHash_freeCount : (s.writeHash abc).freeCount = s.freeCount := rfl

end

/-! ## `clearFlags` -/

section
variable (s : State)

@[simp] theorem State.clearFlags_callIn : s.clearFlags.callIn = s.callIn := rfl
@[simp] theorem State.clearFlags_locIn : s.clearFlags.locIn = s.locIn := rfl
@[simp] theorem State.clearFlags_pwrIn : s.clearFlags.pwrIn = s.pwrIn := rfl
@[simp] theorem State.clearFlags_call : s.clearFlags.call = s.call := rfl
@[simp] theorem State.clearFlags_loc : s.clearFlags.loc = s.loc := rfl
@[simp] theorem State.clearFlags_pwr : s.clearFlags.pwr = s.pwr := rfl
@[simp] theorem State.clearFlags_phase : s.clearFlags.phase = s.phase := rfl
@[simp] theorem State.clearFlags_mtype : s.clearFlags.mtype = s.mtype := rfl
@[simp] theorem State.clearFlags_done : s.clearFlags.done = false := rfl
@[simp] theorem State.clearFlags_err : s.clearFlags.err = false := rfl
@[simp] theorem State.clearFlags_errcode : s.clearFlags.errcode = 0#4 := rfl
@[simp] theorem State.clearFlags_ha : s.clearFlags.ha = s.ha := rfl
@[simp] theorem State.clearFlags_hb : s.clearFlags.hb = s.hb := rfl
@[simp] theorem State.clearFlags_hc : s.clearFlags.hc = s.hc := rfl
@[simp] theorem State.clearFlags_hash15 : s.clearFlags.hash15 = s.hash15 := rfl
@[simp] theorem State.clearFlags_nReg : s.clearFlags.nReg = s.nReg := rfl
@[simp] theorem State.clearFlags_mReg : s.clearFlags.mReg = s.mReg := rfl
@[simp] theorem State.clearFlags_pkt : s.clearFlags.pkt = s.pkt := rfl
@[simp] theorem State.clearFlags_reg0 : s.clearFlags.reg0 = s.reg0 := rfl
@[simp] theorem State.clearFlags_reg1 : s.clearFlags.reg1 = s.reg1 := rfl
@[simp] theorem State.clearFlags_sBits : s.clearFlags.sBits = s.sBits := rfl
@[simp] theorem State.clearFlags_dBits : s.clearFlags.dBits = s.dBits := rfl
@[simp] theorem State.clearFlags_sym : s.clearFlags.sym = s.sym := rfl
@[simp] theorem State.clearFlags_agenda : s.clearFlags.agenda = s.agenda := rfl
@[simp] theorem State.clearFlags_rdata : s.clearFlags.rdata = s.rdata := rfl
@[simp] theorem State.clearFlags_freeCount : s.clearFlags.freeCount = s.freeCount := rfl

end

/-! ## `setError` -/

section
variable (s : State)

@[simp] theorem State.setError_callIn : s.setError.callIn = s.callIn := rfl
@[simp] theorem State.setError_locIn : s.setError.locIn = s.locIn := rfl
@[simp] theorem State.setError_pwrIn : s.setError.pwrIn = s.pwrIn := rfl
@[simp] theorem State.setError_call : s.setError.call = s.call := rfl
@[simp] theorem State.setError_loc : s.setError.loc = s.loc := rfl
@[simp] theorem State.setError_pwr : s.setError.pwr = s.pwr := rfl
@[simp] theorem State.setError_phase : s.setError.phase = s.phase := rfl
@[simp] theorem State.setError_mtype : s.setError.mtype = s.mtype := rfl
@[simp] theorem State.setError_done : s.setError.done = s.done := rfl
@[simp] theorem State.setError_err : s.setError.err = true := rfl
@[simp] theorem State.setError_errcode : s.setError.errcode = errT3NoClose := rfl
@[simp] theorem State.setError_ha : s.setError.ha = s.ha := rfl
@[simp] theorem State.setError_hb : s.setError.hb = s.hb := rfl
@[simp] theorem State.setError_hc : s.setError.hc = s.hc := rfl
@[simp] theorem State.setError_hash15 : s.setError.hash15 = s.hash15 := rfl
@[simp] theorem State.setError_nReg : s.setError.nReg = s.nReg := rfl
@[simp] theorem State.setError_mReg : s.setError.mReg = s.mReg := rfl
@[simp] theorem State.setError_pkt : s.setError.pkt = s.pkt := rfl
@[simp] theorem State.setError_reg0 : s.setError.reg0 = s.reg0 := rfl
@[simp] theorem State.setError_reg1 : s.setError.reg1 = s.reg1 := rfl
@[simp] theorem State.setError_sBits : s.setError.sBits = s.sBits := rfl
@[simp] theorem State.setError_dBits : s.setError.dBits = s.dBits := rfl
@[simp] theorem State.setError_sym : s.setError.sym = s.sym := rfl
@[simp] theorem State.setError_agenda : s.setError.agenda = s.agenda := rfl
@[simp] theorem State.setError_rdata : s.setError.rdata = s.rdata := rfl
@[simp] theorem State.setError_freeCount : s.setError.freeCount = s.freeCount := rfl

end

/-! ## `setDone` -/

section
variable (s : State)

@[simp] theorem State.setDone_callIn : s.setDone.callIn = s.callIn := rfl
@[simp] theorem State.setDone_locIn : s.setDone.locIn = s.locIn := rfl
@[simp] theorem State.setDone_pwrIn : s.setDone.pwrIn = s.pwrIn := rfl
@[simp] theorem State.setDone_call : s.setDone.call = s.call := rfl
@[simp] theorem State.setDone_loc : s.setDone.loc = s.loc := rfl
@[simp] theorem State.setDone_pwr : s.setDone.pwr = s.pwr := rfl
@[simp] theorem State.setDone_phase : s.setDone.phase = s.phase := rfl
@[simp] theorem State.setDone_mtype : s.setDone.mtype = s.mtype := rfl
@[simp] theorem State.setDone_done : s.setDone.done = true := rfl
@[simp] theorem State.setDone_err : s.setDone.err = s.err := rfl
@[simp] theorem State.setDone_errcode : s.setDone.errcode = s.errcode := rfl
@[simp] theorem State.setDone_ha : s.setDone.ha = s.ha := rfl
@[simp] theorem State.setDone_hb : s.setDone.hb = s.hb := rfl
@[simp] theorem State.setDone_hc : s.setDone.hc = s.hc := rfl
@[simp] theorem State.setDone_hash15 : s.setDone.hash15 = s.hash15 := rfl
@[simp] theorem State.setDone_nReg : s.setDone.nReg = s.nReg := rfl
@[simp] theorem State.setDone_mReg : s.setDone.mReg = s.mReg := rfl
@[simp] theorem State.setDone_pkt : s.setDone.pkt = s.pkt := rfl
@[simp] theorem State.setDone_reg0 : s.setDone.reg0 = s.reg0 := rfl
@[simp] theorem State.setDone_reg1 : s.setDone.reg1 = s.reg1 := rfl
@[simp] theorem State.setDone_sBits : s.setDone.sBits = s.sBits := rfl
@[simp] theorem State.setDone_dBits : s.setDone.dBits = s.dBits := rfl
@[simp] theorem State.setDone_sym : s.setDone.sym = s.sym := rfl
@[simp] theorem State.setDone_agenda : s.setDone.agenda = s.agenda := rfl
@[simp] theorem State.setDone_rdata : s.setDone.rdata = s.rdata := rfl
@[simp] theorem State.setDone_freeCount : s.setDone.freeCount = s.freeCount := rfl

end

/-! ## `raiseNoClose` -/

section
variable (s : State)

@[simp] theorem State.raiseNoClose_callIn : s.raiseNoClose.callIn = s.callIn := rfl
@[simp] theorem State.raiseNoClose_locIn : s.raiseNoClose.locIn = s.locIn := rfl
@[simp] theorem State.raiseNoClose_pwrIn : s.raiseNoClose.pwrIn = s.pwrIn := rfl
@[simp] theorem State.raiseNoClose_call : s.raiseNoClose.call = s.call := rfl
@[simp] theorem State.raiseNoClose_loc : s.raiseNoClose.loc = s.loc := rfl
@[simp] theorem State.raiseNoClose_pwr : s.raiseNoClose.pwr = s.pwr := rfl
@[simp] theorem State.raiseNoClose_phase : s.raiseNoClose.phase = phIdle := rfl
@[simp] theorem State.raiseNoClose_mtype : s.raiseNoClose.mtype = s.mtype := rfl
@[simp] theorem State.raiseNoClose_done : s.raiseNoClose.done = s.done := rfl
@[simp] theorem State.raiseNoClose_err : s.raiseNoClose.err = true := rfl
@[simp] theorem State.raiseNoClose_errcode : s.raiseNoClose.errcode = errT3NoClose := rfl
@[simp] theorem State.raiseNoClose_ha : s.raiseNoClose.ha = s.ha := rfl
@[simp] theorem State.raiseNoClose_hb : s.raiseNoClose.hb = s.hb := rfl
@[simp] theorem State.raiseNoClose_hc : s.raiseNoClose.hc = s.hc := rfl
@[simp] theorem State.raiseNoClose_hash15 : s.raiseNoClose.hash15 = s.hash15 := rfl
@[simp] theorem State.raiseNoClose_nReg : s.raiseNoClose.nReg = s.nReg := rfl
@[simp] theorem State.raiseNoClose_mReg : s.raiseNoClose.mReg = s.mReg := rfl
@[simp] theorem State.raiseNoClose_pkt : s.raiseNoClose.pkt = s.pkt := rfl
@[simp] theorem State.raiseNoClose_reg0 : s.raiseNoClose.reg0 = s.reg0 := rfl
@[simp] theorem State.raiseNoClose_reg1 : s.raiseNoClose.reg1 = s.reg1 := rfl
@[simp] theorem State.raiseNoClose_sBits : s.raiseNoClose.sBits = s.sBits := rfl
@[simp] theorem State.raiseNoClose_dBits : s.raiseNoClose.dBits = s.dBits := rfl
@[simp] theorem State.raiseNoClose_sym : s.raiseNoClose.sym = s.sym := rfl
@[simp] theorem State.raiseNoClose_agenda : s.raiseNoClose.agenda = s.agenda := rfl
@[simp] theorem State.raiseNoClose_rdata : s.raiseNoClose.rdata = s.rdata := rfl
@[simp] theorem State.raiseNoClose_freeCount : s.raiseNoClose.freeCount = s.freeCount := rfl

end

/-! ## `returnByte` -/

section
variable (s : State) (v : Byte)

@[simp] theorem State.returnByte_callIn : (s.returnByte v).callIn = s.callIn := rfl
@[simp] theorem State.returnByte_locIn : (s.returnByte v).locIn = s.locIn := rfl
@[simp] theorem State.returnByte_pwrIn : (s.returnByte v).pwrIn = s.pwrIn := rfl
@[simp] theorem State.returnByte_call : (s.returnByte v).call = s.call := rfl
@[simp] theorem State.returnByte_loc : (s.returnByte v).loc = s.loc := rfl
@[simp] theorem State.returnByte_pwr : (s.returnByte v).pwr = s.pwr := rfl
@[simp] theorem State.returnByte_phase : (s.returnByte v).phase = s.phase := rfl
@[simp] theorem State.returnByte_mtype : (s.returnByte v).mtype = s.mtype := rfl
@[simp] theorem State.returnByte_done : (s.returnByte v).done = s.done := rfl
@[simp] theorem State.returnByte_err : (s.returnByte v).err = s.err := rfl
@[simp] theorem State.returnByte_errcode : (s.returnByte v).errcode = s.errcode := rfl
@[simp] theorem State.returnByte_ha : (s.returnByte v).ha = s.ha := rfl
@[simp] theorem State.returnByte_hb : (s.returnByte v).hb = s.hb := rfl
@[simp] theorem State.returnByte_hc : (s.returnByte v).hc = s.hc := rfl
@[simp] theorem State.returnByte_hash15 : (s.returnByte v).hash15 = s.hash15 := rfl
@[simp] theorem State.returnByte_nReg : (s.returnByte v).nReg = s.nReg := rfl
@[simp] theorem State.returnByte_mReg : (s.returnByte v).mReg = s.mReg := rfl
@[simp] theorem State.returnByte_pkt : (s.returnByte v).pkt = s.pkt := rfl
@[simp] theorem State.returnByte_reg0 : (s.returnByte v).reg0 = s.reg0 := rfl
@[simp] theorem State.returnByte_reg1 : (s.returnByte v).reg1 = s.reg1 := rfl
@[simp] theorem State.returnByte_sBits : (s.returnByte v).sBits = s.sBits := rfl
@[simp] theorem State.returnByte_dBits : (s.returnByte v).dBits = s.dBits := rfl
@[simp] theorem State.returnByte_sym : (s.returnByte v).sym = s.sym := rfl
@[simp] theorem State.returnByte_agenda : (s.returnByte v).agenda = s.agenda := rfl
@[simp] theorem State.returnByte_rdata : (s.returnByte v).rdata = v := rfl
@[simp] theorem State.returnByte_freeCount : (s.returnByte v).freeCount = s.freeCount := rfl

end

/-! ## `useFree` -/

section
variable (s : State)

@[simp] theorem State.useFree_callIn : s.useFree.callIn = s.callIn := rfl
@[simp] theorem State.useFree_locIn : s.useFree.locIn = s.locIn := rfl
@[simp] theorem State.useFree_pwrIn : s.useFree.pwrIn = s.pwrIn := rfl
@[simp] theorem State.useFree_call : s.useFree.call = s.call := rfl
@[simp] theorem State.useFree_loc : s.useFree.loc = s.loc := rfl
@[simp] theorem State.useFree_pwr : s.useFree.pwr = s.pwr := rfl
@[simp] theorem State.useFree_phase : s.useFree.phase = s.phase := rfl
@[simp] theorem State.useFree_mtype : s.useFree.mtype = s.mtype := rfl
@[simp] theorem State.useFree_done : s.useFree.done = s.done := rfl
@[simp] theorem State.useFree_err : s.useFree.err = s.err := rfl
@[simp] theorem State.useFree_errcode : s.useFree.errcode = s.errcode := rfl
@[simp] theorem State.useFree_ha : s.useFree.ha = s.ha := rfl
@[simp] theorem State.useFree_hb : s.useFree.hb = s.hb := rfl
@[simp] theorem State.useFree_hc : s.useFree.hc = s.hc := rfl
@[simp] theorem State.useFree_hash15 : s.useFree.hash15 = s.hash15 := rfl
@[simp] theorem State.useFree_nReg : s.useFree.nReg = s.nReg := rfl
@[simp] theorem State.useFree_mReg : s.useFree.mReg = s.mReg := rfl
@[simp] theorem State.useFree_pkt : s.useFree.pkt = s.pkt := rfl
@[simp] theorem State.useFree_reg0 : s.useFree.reg0 = s.reg0 := rfl
@[simp] theorem State.useFree_reg1 : s.useFree.reg1 = s.reg1 := rfl
@[simp] theorem State.useFree_sBits : s.useFree.sBits = s.sBits := rfl
@[simp] theorem State.useFree_dBits : s.useFree.dBits = s.dBits := rfl
@[simp] theorem State.useFree_sym : s.useFree.sym = s.sym := rfl
@[simp] theorem State.useFree_agenda : s.useFree.agenda = s.agenda := rfl
@[simp] theorem State.useFree_rdata : s.useFree.rdata = s.rdata := rfl
@[simp] theorem State.useFree_freeCount : s.useFree.freeCount = s.freeCount + 1 := rfl

end

/-! ## `endTurn` -/

section
variable (s : State)

@[simp] theorem State.endTurn_callIn : s.endTurn.callIn = s.callIn := rfl
@[simp] theorem State.endTurn_locIn : s.endTurn.locIn = s.locIn := rfl
@[simp] theorem State.endTurn_pwrIn : s.endTurn.pwrIn = s.pwrIn := rfl
@[simp] theorem State.endTurn_call : s.endTurn.call = s.call := rfl
@[simp] theorem State.endTurn_loc : s.endTurn.loc = s.loc := rfl
@[simp] theorem State.endTurn_pwr : s.endTurn.pwr = s.pwr := rfl
@[simp] theorem State.endTurn_phase : s.endTurn.phase = s.phase := rfl
@[simp] theorem State.endTurn_mtype : s.endTurn.mtype = s.mtype := rfl
@[simp] theorem State.endTurn_done : s.endTurn.done = s.done := rfl
@[simp] theorem State.endTurn_err : s.endTurn.err = s.err := rfl
@[simp] theorem State.endTurn_errcode : s.endTurn.errcode = s.errcode := rfl
@[simp] theorem State.endTurn_ha : s.endTurn.ha = s.ha := rfl
@[simp] theorem State.endTurn_hb : s.endTurn.hb = s.hb := rfl
@[simp] theorem State.endTurn_hc : s.endTurn.hc = s.hc := rfl
@[simp] theorem State.endTurn_hash15 : s.endTurn.hash15 = s.hash15 := rfl
@[simp] theorem State.endTurn_nReg : s.endTurn.nReg = s.nReg := rfl
@[simp] theorem State.endTurn_mReg : s.endTurn.mReg = s.mReg := rfl
@[simp] theorem State.endTurn_pkt : s.endTurn.pkt = s.pkt := rfl
@[simp] theorem State.endTurn_reg0 : s.endTurn.reg0 = s.reg0 := rfl
@[simp] theorem State.endTurn_reg1 : s.endTurn.reg1 = s.reg1 := rfl
@[simp] theorem State.endTurn_sBits : s.endTurn.sBits = s.sBits := rfl
@[simp] theorem State.endTurn_dBits : s.endTurn.dBits = s.dBits := rfl
@[simp] theorem State.endTurn_sym : s.endTurn.sym = s.sym := rfl
@[simp] theorem State.endTurn_agenda : s.endTurn.agenda = s.agenda.tail := rfl
@[simp] theorem State.endTurn_rdata : s.endTurn.rdata = s.rdata := rfl
@[simp] theorem State.endTurn_freeCount : s.endTurn.freeCount = s.freeCount := rfl

end

/-! ## `takeIndex` -/

section
variable (s : State) (o : Option Nat)

@[simp] theorem State.takeIndex_callIn : (s.takeIndex o).2.callIn = s.callIn := by cases o <;> rfl
@[simp] theorem State.takeIndex_locIn : (s.takeIndex o).2.locIn = s.locIn := by cases o <;> rfl
@[simp] theorem State.takeIndex_pwrIn : (s.takeIndex o).2.pwrIn = s.pwrIn := by cases o <;> rfl
@[simp] theorem State.takeIndex_call : (s.takeIndex o).2.call = s.call := by cases o <;> rfl
@[simp] theorem State.takeIndex_loc : (s.takeIndex o).2.loc = s.loc := by cases o <;> rfl
@[simp] theorem State.takeIndex_pwr : (s.takeIndex o).2.pwr = s.pwr := by cases o <;> rfl
@[simp] theorem State.takeIndex_phase : (s.takeIndex o).2.phase = s.phase := by cases o <;> rfl
@[simp] theorem State.takeIndex_mtype : (s.takeIndex o).2.mtype = s.mtype := by cases o <;> rfl
@[simp] theorem State.takeIndex_done : (s.takeIndex o).2.done = s.done := by cases o <;> rfl
@[simp] theorem State.takeIndex_err : (s.takeIndex o).2.err = s.err := by cases o <;> rfl
@[simp] theorem State.takeIndex_errcode : (s.takeIndex o).2.errcode = s.errcode := by cases o <;> rfl
@[simp] theorem State.takeIndex_ha : (s.takeIndex o).2.ha = s.ha := by cases o <;> rfl
@[simp] theorem State.takeIndex_hb : (s.takeIndex o).2.hb = s.hb := by cases o <;> rfl
@[simp] theorem State.takeIndex_hc : (s.takeIndex o).2.hc = s.hc := by cases o <;> rfl
@[simp] theorem State.takeIndex_hash15 : (s.takeIndex o).2.hash15 = s.hash15 := by cases o <;> rfl
@[simp] theorem State.takeIndex_nReg : (s.takeIndex o).2.nReg = s.nReg := by cases o <;> rfl
@[simp] theorem State.takeIndex_mReg : (s.takeIndex o).2.mReg = s.mReg := by cases o <;> rfl
@[simp] theorem State.takeIndex_pkt : (s.takeIndex o).2.pkt = s.pkt := by cases o <;> rfl
@[simp] theorem State.takeIndex_reg0 : (s.takeIndex o).2.reg0 = s.reg0 := by cases o <;> rfl
@[simp] theorem State.takeIndex_reg1 : (s.takeIndex o).2.reg1 = s.reg1 := by cases o <;> rfl
@[simp] theorem State.takeIndex_sBits : (s.takeIndex o).2.sBits = s.sBits := by cases o <;> rfl
@[simp] theorem State.takeIndex_dBits : (s.takeIndex o).2.dBits = s.dBits := by cases o <;> rfl
@[simp] theorem State.takeIndex_sym : (s.takeIndex o).2.sym = s.sym := by cases o <;> rfl
@[simp] theorem State.takeIndex_agenda : (s.takeIndex o).2.agenda = s.agenda := by cases o <;> rfl
@[simp] theorem State.takeIndex_rdata : (s.takeIndex o).2.rdata = s.rdata := by cases o <;> rfl

@[simp] theorem State.takeIndex_some (k : Nat) : s.takeIndex (some k) = (k, s) := rfl

@[simp] theorem State.takeIndex_none : s.takeIndex none = (Config.freeIndex s.freeCount, s.useFree) := rfl

end

end Sys2Proof.Machine
end

