-- ==== Sys2Proof/Laws/Ops.lean ====
section
/-! SUPPORT. One lemma for each shared operation, saying once what it can do. The block has no memory list (log 15),
so there is no canonical form to keep. -/

namespace Sys2Proof.Machine

/-! ## Reads of the callsign -/

theorem extChar_of_lt (call : Vector Byte 12) (i : Nat) (h : i < 12) : extChar call i = call[i] := by
  simp [extChar, h]

/-- Past its end the callsign reads 0x00 (43_packer.md R211). -/
theorem extChar_of_ge (call : Vector Byte 12) (i : Nat) (h : 12 ≤ i) : extChar call i = 0x00#8 := by
  have : call[i]? = none := by simp [h]
  simp [extChar, this, chNul]

theorem isBlank_iff (c : Byte) : isBlank c = true ↔ c = 0x20#8 ∨ c = 0x00#8 := by
  simp [isBlank, chSpace, chNul]

/-! ## The searches -/

/-- The search for a slash answers the first one (43_packer.md R214). -/
theorem slashIndex_eq_some_iff (call : Vector Byte 12) (sp : Nat) :
    slashIndex call = some sp ↔ isFirstSlash call sp := by
  rw [slashIndex, List.findIdx?_eq_some_iff_getElem]
  constructor
  · rintro ⟨h, h1, h2⟩
    have h' : sp < 12 := by simpa using h
    refine ⟨by omega, ?_, ?_⟩
    · rw [extChar_of_lt _ _ h']; simpa using h1
    · intro k hk
      rw [extChar_of_lt _ _ (by omega)]
      simpa using h2 k hk
  · rintro ⟨h, h1, h2⟩
    refine ⟨by simp; omega, ?_, ?_⟩
    · rw [extChar_of_lt _ _ (by omega)] at h1; simpa using h1
    · intro k hk
      have := h2 k hk
      rw [extChar_of_lt _ _ (by omega)] at this
      simpa using this

/-- The search for a slash finds none exactly when there is none (43_packer.md R214). -/
theorem slashIndex_eq_none_iff (call : Vector Byte 12) : slashIndex call = none ↔ lacks call 0 chSlash := by
  rw [slashIndex, List.findIdx?_eq_none_iff]
  constructor
  · intro h k _ hk
    rw [extChar_of_lt _ _ (by omega)]
    have := h call[k] (by simp)
    simpa using this
  · intro h x hx
    obtain ⟨k, hk, rfl⟩ := List.getElem_of_mem hx
    have hk' : k < 12 := by simpa using hk
    have := h k (by omega) (by omega)
    rw [extChar_of_lt _ _ hk'] at this
    simpa using this

/-- The search for a closing bracket answers the first one from slot 1 on (43_packer.md R232). -/
theorem closeIndex_eq_some_iff (call : Vector Byte 12) (g : Nat) :
    closeIndex call = some g ↔ isFirstClose call g := by
  rw [closeIndex, Option.map_eq_some_iff]
  constructor
  · rintro ⟨k, hk, rfl⟩
    rw [List.findIdx?_eq_some_iff_getElem] at hk
    obtain ⟨h, h1, h2⟩ := hk
    have h' : k < 11 := by simpa using h
    refine ⟨by omega, by omega, ?_, ?_⟩
    · rw [extChar_of_lt _ _ (by omega)]
      simpa [Nat.add_comm 1 k] using h1
    · intro j hj1 hj
      rw [extChar_of_lt _ _ (by omega)]
      have := h2 (j - 1) (by omega)
      simpa [Nat.sub_add_cancel hj1, Nat.add_comm 1 (j - 1)] using this
  · rintro ⟨hg1, hg, h1, h2⟩
    refine ⟨g - 1, ?_, by omega⟩
    rw [List.findIdx?_eq_some_iff_getElem]
    refine ⟨by simp; omega, ?_, ?_⟩
    · rw [extChar_of_lt _ _ (by omega)] at h1
      simpa [Nat.sub_add_cancel hg1, Nat.add_comm 1 (g - 1)] using h1
    · intro k hk
      have := h2 (k + 1) (by omega) (by omega)
      rw [extChar_of_lt _ _ (by omega)] at this
      simpa [Nat.add_comm 1 k] using this

/-- The search for a closing bracket finds none exactly when there is none (43_packer.md R214). -/
theorem closeIndex_eq_none_iff (call : Vector Byte 12) : closeIndex call = none ↔ lacks call 1 chGreater := by
  rw [closeIndex, Option.map_eq_none_iff, List.findIdx?_eq_none_iff]
  constructor
  · intro h k h1 hk
    rw [extChar_of_lt _ _ (by omega)]
    have := h call[k] (by
      rw [List.mem_iff_getElem]
      exact ⟨k - 1, by simp; omega, by simp [Nat.sub_add_cancel h1]⟩)
    simpa using this
  · intro h x hx
    obtain ⟨k, hk, rfl⟩ := List.getElem_of_mem hx
    have hk' : k < 11 := by simpa using hk
    have := h (k + 1) (by omega) (by omega)
    rw [extChar_of_lt _ _ (by omega)] at this
    simpa [Nat.add_comm 1 k] using this

theorem opensBracket_iff (call : Vector Byte 12) : opensBracket call = true ↔ call[0] = 0x3C#8 := by
  simp [opensBracket, chLess]

/-! ## The packer's registers -/

/-- A FIELD operation reduces `n` to 28 bits by the floor modulus (43_packer.md R210). -/
theorem State.writeFields_nReg_toNat (s : State) (n m : Int) :
    ((s.writeFields n m).nReg.toNat : Int) = n % 2 ^ 28 := by
  simp only [State.writeFields_nReg, BitVec.toNat_ofInt]
  omega

/-- A FIELD operation reduces `m` to 22 bits by the floor modulus (43_packer.md R210). -/
theorem State.writeFields_mReg_toNat (s : State) (n m : Int) :
    ((s.writeFields n m).mReg.toNat : Int) = m % 2 ^ 22 := by
  simp only [State.writeFields_mReg, BitVec.toNat_ofInt]
  omega

/-! ## Flags -/

theorem State.busy_eq_true_iff (s : State) : s.busy = true ↔ s.phase ≠ phIdle := by simp [State.busy]

theorem State.busy_eq_false_iff (s : State) : s.busy = false ↔ s.phase = phIdle := by simp [State.busy]

/-! ## Free values -/

/-- A search's index, or a free one; only the count of free values can change (log 12). -/
theorem State.takeIndex_cases (s : State) (o : Option Nat) :
    (∃ k, o = some k ∧ s.takeIndex o = (k, s)) ∨
      (o = none ∧ s.takeIndex o = (Config.freeIndex s.freeCount, { s with freeCount := s.freeCount + 1 })) := by
  cases o with
  | none => exact .inr ⟨rfl, rfl⟩
  | some k => exact .inl ⟨k, rfl, rfl⟩

end Sys2Proof.Machine
end

