-- ==== Sys2Proof/Laws/PerInstr.lean ====
section
/-! SUPPORT. Statements made per operation (LAWS.json): each operation's word is a word of its own row of
spec/opcode_table.json. -/

namespace Sys2Proof.Laws

/-- The word of `i` has its row's width and matches its row's pattern (30_encoding.md R107). -/
def MatchesRow.Statement (i : Instr) : Prop :=
  (encodeWord i).width = (rowOf i).width ∧ (encodeWord i).bits &&& (rowOf i).mask = (rowOf i).pattern

/-- A mask on an access word: every bit the mask fixes is the pattern's. -/
theorem access_land_mask (w : Hacc) (mask pattern : Nat) (hp : pattern &&& mask = pattern) (hm : mask < 2 ^ 18)
    (h : ∀ j < 18, mask.testBit j = true → w.getLsbD j = pattern.testBit j) : w.toNat &&& mask = pattern := by
  apply Nat.eq_of_testBit_eq
  intro j
  rw [← hp, Nat.testBit_and, Nat.testBit_and]
  cases hj : mask.testBit j with
  | false => simp
  | true =>
    have : j < 18 := by
      by_contra hge
      rw [Nat.testBit_lt_two_pow (Nat.lt_of_lt_of_le hm (Nat.pow_le_pow_right (by decide) (by omega)))] at hj
      exact absurd hj (by decide)
    rw [← h j this hj]; rfl

/-- The fixed bits of a register number, one by one. -/
theorem access_bits (we : Bool) (a : RegNum) (d : Byte) (mask pattern : Nat) (hp : pattern &&& mask = pattern)
    (hm : mask < 2 ^ 18)
    (hd : ∀ j < 8, mask.testBit j = true → d.getLsbD j = pattern.testBit j)
    (ha : ∀ j < 9, mask.testBit (j + 8) = true → a.getLsbD j = pattern.testBit (j + 8))
    (hw : we = pattern.testBit 17) : (accessWord we a d).toNat &&& mask = pattern := by
  refine access_land_mask _ mask pattern hp hm fun j hj hmask => ?_
  rw [accessWord_getLsbD]
  by_cases h8 : j < 8
  · simpa [h8] using hd j h8 hmask
  · by_cases h17 : j < 17
    · have := ha (j - 8) (by omega) (by rwa [show j - 8 + 8 = j by omega])
      simpa [h8, h17, show j - 8 + 8 = j by omega] using this
    · obtain rfl : j = 17 := by omega
      simpa using hw

theorem MatchesRow.norm (m : BitVec 3) : MatchesRow.Statement (.norm m) := by
  unfold MatchesRow.Statement; decide +revert

theorem MatchesRow.classify (m : BitVec 3) : MatchesRow.Statement (.classify m) := by
  unfold MatchesRow.Statement; decide +revert

theorem MatchesRow.hash : MatchesRow.Statement .hash := by unfold MatchesRow.Statement; decide

theorem MatchesRow.fieldT1 : MatchesRow.Statement .fieldT1 := by unfold MatchesRow.Statement; decide

theorem MatchesRow.fieldT2S1 : MatchesRow.Statement .fieldT2S1 := by unfold MatchesRow.Statement; decide

theorem MatchesRow.fieldT2S2 : MatchesRow.Statement .fieldT2S2 := by unfold MatchesRow.Statement; decide

theorem MatchesRow.fieldT2P : MatchesRow.Statement .fieldT2P := by unfold MatchesRow.Statement; decide

theorem MatchesRow.fieldT3 : MatchesRow.Statement .fieldT3 := by unfold MatchesRow.Statement; decide

theorem MatchesRow.packb (m : BitVec 3) : MatchesRow.Statement (.packb m) := by
  unfold MatchesRow.Statement; decide +revert

theorem MatchesRow.conv (m : BitVec 3) : MatchesRow.Statement (.conv m) := by
  unfold MatchesRow.Statement; decide +revert

theorem MatchesRow.ilv (m : BitVec 3) : MatchesRow.Statement (.ilv m) := by
  unfold MatchesRow.Statement; decide +revert

theorem MatchesRow.merge (m : BitVec 3) : MatchesRow.Statement (.merge m) := by
  unfold MatchesRow.Statement; decide +revert

theorem MatchesRow.wrCallIn (i : BitVec 4) (v : Byte) : MatchesRow.Statement (.wrCallIn i v) := by
  refine ⟨rfl, access_bits true _ _ 0x3F000 0x20000 (by decide) (by decide) ?_ ?_ (by decide)⟩
  · intro j hj hm; interval_cases j <;> exact absurd hm (by decide)
  · decide +revert

theorem MatchesRow.wrLocIn (i : BitVec 3) (v : Byte) : MatchesRow.Statement (.wrLocIn i v) := by
  refine ⟨rfl, access_bits true _ _ 0x3F800 0x21000 (by decide) (by decide) ?_ ?_ (by decide)⟩
  · intro j hj hm; interval_cases j <;> exact absurd hm (by decide)
  · decide +revert

theorem MatchesRow.wrPwrIn (v : Byte) : MatchesRow.Statement (.wrPwrIn v) := by
  refine ⟨rfl, access_bits true _ _ 0x3FF00 0x21800 (by decide) (by decide) ?_ ?_ (by decide)⟩
  · intro j hj hm; interval_cases j <;> exact absurd hm (by decide)
  · decide

theorem MatchesRow.start (x : BitVec 7) : MatchesRow.Statement (.start x) := by
  refine ⟨rfl, access_bits true _ _ 0x3FF01 0x21901 (by decide) (by decide) ?_ ?_ (by decide)⟩
  · decide +revert +kernel
  · decide

theorem MatchesRow.wrCtrlNop (x : BitVec 7) : MatchesRow.Statement (.wrCtrlNop x) := by
  refine ⟨rfl, access_bits true _ _ 0x3FF01 0x21900 (by decide) (by decide) ?_ ?_ (by decide)⟩
  · decide +revert +kernel
  · decide

theorem MatchesRow.rdCallIn (i : BitVec 4) (x : Byte) : MatchesRow.Statement (.rdCallIn i x) := by
  refine ⟨rfl, access_bits false _ _ 0x3F000 0x00000 (by decide) (by decide) ?_ ?_ (by decide)⟩
  · intro j hj hm; interval_cases j <;> exact absurd hm (by decide)
  · decide +revert

theorem MatchesRow.rdLocIn (i : BitVec 3) (x : Byte) : MatchesRow.Statement (.rdLocIn i x) := by
  refine ⟨rfl, access_bits false _ _ 0x3F800 0x01000 (by decide) (by decide) ?_ ?_ (by decide)⟩
  · intro j hj hm; interval_cases j <;> exact absurd hm (by decide)
  · decide +revert

theorem MatchesRow.rdPwrIn (x : Byte) : MatchesRow.Statement (.rdPwrIn x) := by
  refine ⟨rfl, access_bits false _ _ 0x3FF00 0x01800 (by decide) (by decide) ?_ ?_ (by decide)⟩
  · intro j hj hm; interval_cases j <;> exact absurd hm (by decide)
  · decide

theorem MatchesRow.rdCtrl (x : Byte) : MatchesRow.Statement (.rdCtrl x) := by
  refine ⟨rfl, access_bits false _ _ 0x3FF00 0x01900 (by decide) (by decide) ?_ ?_ (by decide)⟩
  · intro j hj hm; interval_cases j <;> exact absurd hm (by decide)
  · decide

theorem MatchesRow.rdStatus (x : Byte) : MatchesRow.Statement (.rdStatus x) := by
  refine ⟨rfl, access_bits false _ _ 0x3FF00 0x01A00 (by decide) (by decide) ?_ ?_ (by decide)⟩
  · intro j hj hm; interval_cases j <;> exact absurd hm (by decide)
  · decide

theorem MatchesRow.rdSym (i : BitVec 8) (x : Byte) : MatchesRow.Statement (.rdSym i x) := by
  refine ⟨rfl, access_bits false _ _ 0x30000 0x10000 (by decide) (by decide) ?_ ?_ (by decide)⟩
  · intro j hj hm; interval_cases j <;> exact absurd hm (by decide)
  · decide +revert +kernel

theorem MatchesRow.wrIgnored (a : RegNum) (x : Byte) : MatchesRow.Statement (.wrIgnored a x) := by
  refine ⟨rfl, access_bits true _ _ 0x20000 0x20000 (by decide) (by decide) ?_ ?_ (by decide)⟩
  · intro j hj hm; interval_cases j <;> exact absurd hm (by decide)
  · intro j hj hm; interval_cases j <;> exact absurd hm (by decide)

theorem MatchesRow.rdReserved (a : RegNum) (x : Byte) : MatchesRow.Statement (.rdReserved a x) := by
  refine ⟨rfl, access_bits false _ _ 0x20000 0x00000 (by decide) (by decide) ?_ ?_ (by decide)⟩
  · intro j hj hm; interval_cases j <;> exact absurd hm (by decide)
  · intro j hj hm; interval_cases j <;> exact absurd hm (by decide)

theorem MatchesRow.reset : MatchesRow.Statement .reset := by unfold MatchesRow.Statement; decide

end Sys2Proof.Laws
end

