-- ==== Sys2Proof/Laws/Step.lean ====
section
/-! SUPPORT. What a step can do, said once: no operation stops, and a step that answers a next state has either passed
a turn or run one operation. -/

namespace Sys2Proof.Machine

/-- Every operation answers a next state in every state. -/
theorem exec_isNext (i : Instr) (s : State) : ∃ t, exec i s = .next t := by
  cases i <;> try exact ⟨_, rfl⟩
  · simp only [exec, execClassify]
    split
    · split <;> exact ⟨_, rfl⟩
    · exact ⟨_, rfl⟩
  · simp only [exec, execHash]
    split <;> exact ⟨_, rfl⟩
  · simp only [exec, execStart]
    split <;> exact ⟨_, rfl⟩
  · simp only [exec, execRdSym]
    split <;> exact ⟨_, rfl⟩

/-- All that a step which answers a next state can have done. -/
theorem step_cases {s t : State} (h : step s = .next t) :
    (s.fetch = none ∧ t = s.endTurn) ∨
      ∃ w i, s.fetch = some w ∧ decodeWord w = .ok i ∧ exec i s.endTurn = .next t := by
  simp only [step] at h
  split at h
  · next hf => exact .inl ⟨hf, by cases h; rfl⟩
  · next w hf =>
    split at h
    · next i hd => exact .inr ⟨w, i, hf, hd, h⟩
    · cases h

/-- All that the word of the next step can be. -/
theorem fetch_cases {s : State} {w : OpWord} (h : s.fetch = some w) :
    (w = .select s.opsel ∧ s.phase ≠ phIdle ∧ (s.agenda = [] ∨ s.agenda.head? = some .seq)) ∨
      (∃ v, w = .access v ∧ s.agenda.head? = some (.host v)) ∨
      (w = .resetInput ∧ s.agenda.head? = some .reset) := by
  simp only [State.fetch, State.sequencerWord] at h
  split at h
  · next ha =>
    split at h
    · next hb => cases h; exact .inl ⟨rfl, by simpa [State.busy] using hb, .inl ha⟩
    · cases h
  · next ha =>
    split at h
    · next hb => cases h; exact .inl ⟨rfl, by simpa [State.busy] using hb, .inr (by rw [ha]; rfl)⟩
    · cases h
  · next ha => cases h; exact .inr (.inl ⟨_, rfl, by rw [ha]; rfl⟩)
  · next ha => cases h; exact .inr (.inr ⟨rfl, by rw [ha]; rfl⟩)

/-- A select word that decodes selects a sequencer operation, never a host operation or RESET. -/
theorem decodeSelect_cases {w : OpSel} {i : Instr} (h : decodeSelect w = .ok i) :
    (phaseField w = 1#4 ∧ i = .norm (mtypeField w)) ∨ (phaseField w = 2#4 ∧ i = .classify (mtypeField w)) ∨
      (phaseField w = 3#4 ∧ mtypeField w = 5#3 ∧ i = .hash) ∨
      (phaseField w = 4#4 ∧ mtypeField w = 1#3 ∧ i = .fieldT1) ∨
      (phaseField w = 4#4 ∧ mtypeField w = 2#3 ∧ i = .fieldT2S1) ∨
      (phaseField w = 4#4 ∧ mtypeField w = 3#3 ∧ i = .fieldT2S2) ∨
      (phaseField w = 4#4 ∧ mtypeField w = 4#3 ∧ i = .fieldT2P) ∨
      (phaseField w = 4#4 ∧ mtypeField w = 5#3 ∧ i = .fieldT3) ∨
      (phaseField w = 5#4 ∧ i = .packb (mtypeField w)) ∨ (phaseField w = 6#4 ∧ i = .conv (mtypeField w)) ∨
      (phaseField w = 7#4 ∧ i = .ilv (mtypeField w)) ∨ (phaseField w = 8#4 ∧ i = .merge (mtypeField w)) := by
  have key : ∀ w : OpSel, (decodeSelect w).toOption = none ∨
      (phaseField w = 1#4 ∧ (decodeSelect w).toOption = some (.norm (mtypeField w))) ∨
      (phaseField w = 2#4 ∧ (decodeSelect w).toOption = some (.classify (mtypeField w))) ∨
      (phaseField w = 3#4 ∧ mtypeField w = 5#3 ∧ (decodeSelect w).toOption = some .hash) ∨
      (phaseField w = 4#4 ∧ mtypeField w = 1#3 ∧ (decodeSelect w).toOption = some .fieldT1) ∨
      (phaseField w = 4#4 ∧ mtypeField w = 2#3 ∧ (decodeSelect w).toOption = some .fieldT2S1) ∨
      (phaseField w = 4#4 ∧ mtypeField w = 3#3 ∧ (decodeSelect w).toOption = some .fieldT2S2) ∨
      (phaseField w = 4#4 ∧ mtypeField w = 4#3 ∧ (decodeSelect w).toOption = some .fieldT2P) ∨
      (phaseField w = 4#4 ∧ mtypeField w = 5#3 ∧ (decodeSelect w).toOption = some .fieldT3) ∨
      (phaseField w = 5#4 ∧ (decodeSelect w).toOption = some (.packb (mtypeField w))) ∨
      (phaseField w = 6#4 ∧ (decodeSelect w).toOption = some (.conv (mtypeField w))) ∨
      (phaseField w = 7#4 ∧ (decodeSelect w).toOption = some (.ilv (mtypeField w))) ∨
      (phaseField w = 8#4 ∧ (decodeSelect w).toOption = some (.merge (mtypeField w))) := by decide +kernel
  have := key w
  rw [h] at this
  simpa only [Except.toOption, Option.some.injEq, reduceCtorEq, false_or] using this

end Sys2Proof.Machine
end

