-- ==== Sys2Proof/Tests/Slice0.lean ====
section
/-! SUPPORT. Tests of the model on fixed values, and for every obligation with hypotheses a state that meets them. The
expected values are the spec's: 30_encoding.md R107 for the words, the rules named in each docstring for the rest. -/

namespace Sys2Proof.Tests

open Sys2Proof.Machine

set_option Elab.async false

/-! ## Helpers -/

def bytesOf (t : String) : List Byte := t.toList.map fun x => BitVec.ofNat 8 x.toNat

/-- A normalized callsign: filled with spaces. -/
def callOf (t : String) : Vector Byte 12 := Vector.ofFn fun k => (bytesOf t).getD k.val 0x20#8

/-- A callsign as the host gives it: filled with 0x00. -/
def rawOf (t : String) : Vector Byte 12 := Vector.ofFn fun k => (bytesOf t).getD k.val 0x00#8

/-- A locator, filled with 0x00. -/
def locOf (t : String) : Vector Byte 6 := Vector.ofFn fun k => (bytesOf t).getD k.val 0x00#8

/-- A state with this context. -/
def ctx (call loc : String) (pwr : Int) : State :=
  { State.reset with call := callOf call, loc := locOf loc, pwr := BitVec.ofInt 8 pwr }

/-- The state after an operation. -/
def after (i : Instr) (s : State) : Option State :=
  match exec i s with
  | .next t => some t
  | _ => none

/-- The two fields after a FIELD operation. -/
def fields (i : Instr) (s : State) : Option (Nat × Nat) := (after i s).map fun t => (t.nReg.toNat, t.mReg.toNat)

/-! ## WellFormed: an ill-formed term for each check -/

theorem test_wf_mtype : (Instr.norm 6).wellFormed = false ∧ (Instr.classify 7).wellFormed = false ∧
    (Instr.packb 6).wellFormed = false ∧ (Instr.conv 7).wellFormed = false ∧ (Instr.ilv 6).wellFormed = false ∧
    (Instr.merge 7).wellFormed = false := by decide

theorem test_wf_index : (Instr.wrCallIn 12 0).wellFormed = false ∧ (Instr.rdCallIn 12 0).wellFormed = false ∧
    (Instr.wrLocIn 6 0).wellFormed = false ∧ (Instr.rdLocIn 6 0).wellFormed = false ∧
    (Instr.rdSym 162 0).wellFormed = false := by decide

theorem test_wf_number : (Instr.wrIgnored 0x00B 0).wellFormed = false ∧ (Instr.wrIgnored 0x019 0).wellFormed = false ∧
    (Instr.rdReserved 0x01A 0).wellFormed = false ∧ (Instr.rdReserved 0x1A1 0).wellFormed = false := by decide

/-! ## Decode: one word of every row, bit by bit from 30_encoding.md R107 -/

theorem test_decode_norm : decodeTableWord 7 0b0001_000 = some (.norm 0) := by decide +kernel
theorem test_decode_class : decodeTableWord 7 0b0010_000 = some (.classify 0) := by decide +kernel
theorem test_decode_hash : decodeTableWord 7 0b0011101 = some .hash := by decide +kernel
theorem test_decode_fieldT1 : decodeTableWord 7 0b0100001 = some .fieldT1 := by decide +kernel
theorem test_decode_fieldT2S1 : decodeTableWord 7 0b0100010 = some .fieldT2S1 := by decide +kernel
theorem test_decode_fieldT2S2 : decodeTableWord 7 0b0100011 = some .fieldT2S2 := by decide +kernel
theorem test_decode_fieldT2P : decodeTableWord 7 0b0100100 = some .fieldT2P := by decide +kernel
theorem test_decode_fieldT3 : decodeTableWord 7 0b0100101 = some .fieldT3 := by decide +kernel
theorem test_decode_packb : decodeTableWord 7 0b0101_001 = some (.packb 1) := by decide +kernel
theorem test_decode_conv : decodeTableWord 7 0b0110_010 = some (.conv 2) := by decide +kernel
theorem test_decode_ilv : decodeTableWord 7 0b0111_011 = some (.ilv 3) := by decide +kernel
theorem test_decode_merge : decodeTableWord 7 0b1000_101 = some (.merge 5) := by decide +kernel
theorem test_decode_wrCallIn : decodeTableWord 18 0b1_00000_0011_01100010 = some (.wrCallIn 3 0x62) := by decide +kernel
theorem test_decode_wrLocIn : decodeTableWord 18 0b1_000010_101_01000110 = some (.wrLocIn 5 0x46) := by decide +kernel
theorem test_decode_wrPwrIn : decodeTableWord 18 0b1_000011000_11100001 = some (.wrPwrIn 0xE1) := by decide +kernel
theorem test_decode_start : decodeTableWord 18 0b1_000011001_1111111_1 = some (.start 127) := by decide +kernel
theorem test_decode_wrCtrlNop : decodeTableWord 18 0b1_000011001_1111111_0 = some (.wrCtrlNop 127) := by decide +kernel
theorem test_decode_rdCallIn : decodeTableWord 18 0b0_00000_1011_00000000 = some (.rdCallIn 11 0) := by decide +kernel
theorem test_decode_rdLocIn : decodeTableWord 18 0b0_000010_101_00000001 = some (.rdLocIn 5 1) := by decide +kernel
theorem test_decode_rdPwrIn : decodeTableWord 18 0b0_000011000_00000000 = some (.rdPwrIn 0) := by decide +kernel
theorem test_decode_rdCtrl : decodeTableWord 18 0b0_000011001_00000000 = some (.rdCtrl 0) := by decide +kernel
theorem test_decode_rdStatus : decodeTableWord 18 0b0_000011010_00000000 = some (.rdStatus 0) := by decide +kernel
theorem test_decode_rdSym : decodeTableWord 18 0b0_1_10100001_00000000 = some (.rdSym 161 0) := by decide +kernel
theorem test_decode_wrIgnored : decodeTableWord 18 0b1_000011010_00000101 = some (.wrIgnored 0x01A 5) := by decide +kernel
theorem test_decode_rdReserved : decodeTableWord 18 0b0_1_10100010_00000000 = some (.rdReserved 0x1A2 0) := by decide +kernel
theorem test_decode_reset : decodeTableWord 0 0 = some .reset := by decide +kernel

/-- 30_encoding.md R107 (`PHASE = IDLE`) and R112. -/
theorem test_decode_rejects : decodeTableWord 7 0b0000_000 = none ∧ decodeTableWord 7 0b1001_000 = none ∧
    decodeTableWord 7 0b0001_110 = none ∧ decodeTableWord 7 0b0011_001 = none ∧ decodeTableWord 7 0b0100_000 = none ∧
    decodeTableWord 8 0b1_0001_000 = none ∧ decodeTableWord 18 (2 ^ 18) = none := by decide +kernel

/-! ## A step runs a placed word as the first after reset -/

theorem test_fetch_access : (match step (State.reset.withFetchWord 18 0b1_00000_0000_01001011) with
    | .next t => some (t.callIn[0], t.agenda) | _ => none) = some (0x4B#8, []) := by decide +kernel

theorem test_fetch_select : (match step (State.reset.withFetchWord 7 0b0010_000) with
    | .next t => some (t.mtype, t.phase) | _ => none) = some (mtT1, phField) := by decide +kernel

/-! ## The sequencer's operations -/

/-- 41_normalizer.md R160, its example. -/
theorem test_norm : (after (.norm 0) { ctx "" "on80" 11 with call := rawOf "bi1tph" }).map
    (fun t => (t.call, t.loc, t.pwr.toInt, t.phase)) = some (callOf "BI1TPH", locOf "ON80", 10, phClass) := by
  decide +kernel

/-- 41_normalizer.md R162, R165 and R168: a point, a `Y` in slot 4, and −31. -/
theorem test_norm_degrades : (after (.norm 0) { ctx "" "FN42YA" (-31) with call := rawOf "K1ABC.P" }).map
    (fun t => (t.call, t.loc, t.pwr.toInt)) = some (callOf "K1ABC P", locOf "AA00AA", -30) := by decide +kernel

/-- 95_test_vectors.md V-C17: the first of two slashes. -/
theorem test_class_two_slashes : (after (.classify 0) (ctx "K1ABC//4" "FN42" 37)).map
    (fun t => (t.mtype, t.phase, t.err)) = some (mtT2S2, phField, false) := by decide +kernel

/-- 95_test_vectors.md V-C21: the error. -/
theorem test_class_error : (after (.classify 0) (ctx "<K1ABC" "FN42" 37)).map
    (fun t => (t.mtype, t.phase, t.status)) = some (mtT3, phIdle, 0x14#8) := by decide +kernel

/-- 42_hasher.md R197, its example. -/
theorem test_hash : (after .hash (ctx "<K1ABC>" "FN42" 37)).map (fun t => (t.ha, t.hb, t.hc, t.hash15.toNat)) =
    some (0xd377abf9#32, 0x91de8f8f#32, 0x723e1979#32, 6521) := by decide +kernel

/-- 42_hasher.md R198, the longest key. -/
theorem test_hash_longest : (after .hash (ctx "<AB1CDEFGHI>" "FN42" 37)).map (fun t => (t.hc, t.hash15.toNat)) =
    some (0x6d1a4096#32, 16534) := by decide +kernel

/-- 95_test_vectors.md V-F1 and V-F7 (a negative `n`). -/
theorem test_fieldT1 : fields .fieldT1 (ctx "K1ABC" "FN42" 37) = some (0xF70C238, 0x2C3465) ∧
    fields .fieldT1 (ctx "000000" "AA00" 0) = some (0xFFFE26E, 0x3EEE40) := by decide +kernel

/-- 95_test_vectors.md V-F12 and V-F14. -/
theorem test_fieldT2S1 : fields .fieldT2S1 (ctx "K1ABC/4" "FN42" 37) = some (0xF70C238, 0x353267) ∧
    fields .fieldT2S1 (ctx "K1ABC/" "FN42" 37) = some (0xF70C238, 0x354367) := by decide +kernel

/-- 95_test_vectors.md V-F17 and V-F22 (a `d1` of −1). -/
theorem test_fieldT2S2 : fields .fieldT2S2 (ctx "K1ABC/12" "FN42" 37) = some (0xF70C238, 0x354367) ∧
    fields .fieldT2S2 (ctx "K1ABC//4" "FN42" 37) = some (0xF70C238, 0x353A67) := by decide +kernel

/-- 95_test_vectors.md V-F23, V-F27 (the right shift) and V-F30 (the lower half). -/
theorem test_fieldT2P : fields .fieldT2P (ctx "PJ4/K1ABC" "FN42" 37) = some (0xF70C238, 0x043A67) ∧
    fields .fieldT2P (ctx "P/K1ABC" "FN42" 37) = some (0xF70C238, 0x2222E7) ∧
    fields .fieldT2P (ctx "3D2/K1ABCD" "FN42" 37) = some (0xF70C238, 0x08F766) := by decide +kernel

/-- 95_test_vectors.md V-F33 and V-F34. -/
theorem test_fieldT3 : fields .fieldT3 { ctx "<K1ABC>" "FN42" 37 with hash15 := 6521#15 } = some (0x9C3B813, 0x0CBC9A) ∧
    fields .fieldT3 { ctx "<K1ABC>" "FN42" (-30) with hash15 := 6521#15 } = some (0x9C3B813, 0x0CBCDD) := by
  decide +kernel

/-- 95_test_vectors.md section 4.4. -/
theorem test_packb : (after (.packb 0) { State.reset with nReg := 0xABCDEF1#28, mReg := 0x234567#22 }).map (·.pkt) =
    some #v[0xAB, 0xCD, 0xEF, 0x18, 0xD1, 0x59, 0xC0, 0, 0, 0, 0] := by decide +kernel

/-- 44_convolutional.md R264: the impulse fixes the numbering of the taps. -/
theorem test_conv_impulse :
    (after (.conv 0) { State.reset with pkt := #v[0x80, 0, 0, 0, 0, 0, 0, 0, 0, 0, 0] }).map
      (fun t => (t.sBits.toList.take 16, t.sBits.toList.drop 64 |>.any id)) =
    some ([true, true, false, true, false, true, false, false, true, false, false, false, true, true, false, false],
      false) := by decide +kernel

/-- 44_convolutional.md R264: the last information bit. -/
theorem test_conv_last : (after (.conv 0) { State.reset with pkt := #v[0, 0, 0, 0, 0, 0, 0x40, 0, 0, 0, 0] }).map
    (fun t => (t.reg0, t.reg1, t.sBits[98], t.sBits[160], t.sBits[161])) =
    some (0x80000000#32, 0x80000000#32, true, true, true) := by decide +kernel

/-- 45_interleaver.md R285: a single 1 at `S[i]` lands at `D[PERM[i]]`; `D[161] = S[85]`. -/
theorem test_ilv : (after (.ilv 0) { State.reset with sBits := (Vector.replicate 162 false).set 85 true }).map
    (fun t => (t.dBits[161], t.dBits.toList.count true)) = some (true, 1) := by decide +kernel

/-- 45_interleaver.md R283: both printed tables are the computed ones. -/
theorem test_ilv_tables : permComputed = permTable ∧ invComputed = invTable := by decide +kernel

/-- 46_sync_merger.md R292: `D` all one. -/
theorem test_merge : (after (.merge 0) { State.reset with dBits := Vector.replicate 162 true }).map
    (fun t => (t.sym[0], t.sym[2], t.done, t.phase)) = some (3#2, 2#2, true, phIdle) := by decide +kernel

/-! ## The host's operations -/

/-- 40_encode_sequence.md R135, its example. -/
theorem test_wrCallIn : (after (.wrCallIn 0 0x4B) State.reset).map (·.callIn) = some (rawOf "K") := by decide +kernel

theorem test_wrLocIn : (after (.wrLocIn 0 0x46) State.reset).map (·.locIn) = some (locOf "F") := by decide +kernel

theorem test_wrPwrIn : (after (.wrPwrIn 0xE1) State.reset).map (·.pwrIn.toInt) = some (-31) := by decide +kernel

/-- 40_encode_sequence.md R137, its example. -/
theorem test_start : (after (.start 0) { State.reset with done := true, callIn := rawOf "K" }).map
    (fun t => (t.status, t.call)) = some (0x01#8, rawOf "K") := by decide +kernel

/-- 70_reset_and_hazards.md R336. -/
theorem test_start_busy : exec (.start 0) { State.reset with phase := phConv, callIn := rawOf "K" } =
    .next { State.reset with phase := phConv, callIn := rawOf "K" } := rfl

theorem test_wrCtrlNop : exec (.wrCtrlNop 127) State.reset = .next State.reset := rfl

theorem test_wrIgnored : exec (.wrIgnored 0x100 3) { State.reset with done := true } =
    .next { State.reset with done := true } := rfl

theorem test_rdCallIn : (after (.rdCallIn 1 0) { State.reset with callIn := rawOf "k1" }).map (·.rdata) =
    some 0x31#8 := by decide +kernel

theorem test_rdLocIn : (after (.rdLocIn 5 0) { State.reset with locIn := locOf "fn42ax" }).map (·.rdata) =
    some 0x78#8 := by decide +kernel

theorem test_rdPwrIn : (after (.rdPwrIn 0) { State.reset with pwrIn := 37#8 }).map (·.rdata) = some 37#8 := by
  decide +kernel

theorem test_rdCtrl : (after (.rdCtrl 0) { State.reset with rdata := 1#8 }).map (·.rdata) = some 0x00#8 := by
  decide +kernel

/-- 40_encode_sequence.md R136: the four values `STATUS` can read. -/
theorem test_rdStatus : (after (.rdStatus 0) { State.reset with phase := phNorm }).map (·.rdata) = some 0x01#8 ∧
    (after (.rdStatus 0) { State.reset with err := true, errcode := 1#4 }).map (·.rdata) = some 0x14#8 := by
  decide +kernel

/-- 40_encode_sequence.md R138. -/
theorem test_rdSym : (after (.rdSym 161 0) { State.reset with done := true, sym := Vector.replicate 162 3#2 }).map
    (·.rdata) = some 0x03#8 := by decide +kernel

theorem test_rdReserved : (after (.rdReserved 0x1A2 0) { State.reset with rdata := 9#8 }).map (·.rdata) =
    some 0x00#8 := by decide +kernel

/-- 70_reset_and_hazards.md R330. -/
theorem test_reset : (after .reset { State.reset with phase := phConv, mtype := mtT1, callIn := rawOf "K" }).map
    (fun t => (t.phase, t.mtype, t.callIn, t.status)) = some (phIdle, mtNone, rawOf "", 0x00#8) := by decide +kernel

/-! ## Witnesses: states that meet the obligations' hypotheses -/

/-- On its way to MERGE, with a Type-1 identity. -/
def merging : State :=
  { ctx "K1ABC" "FN42" 37 with phase := phMerge, mtype := mtT1 }

/-- After MERGE. -/
def finished : State :=
  { ctx "K1ABC" "FN42" 37 with
    phase := phIdle, mtype := mtT1, done := true, sym := mergeSymbols (Vector.replicate 162 false) }

/-- About to run CLASS on a bracketed callsign. -/
def classifying : State := { ctx "<K1ABC>" "FN42" 37 with phase := phClass }

/-- The same callsign without its closing bracket. -/
def unclosed : State := { ctx "<K1ABC" "FN42" 37 with phase := phClass }

theorem merging_normal : merging.contextNormal := by unfold State.contextNormal; decide +kernel

theorem merging_inv : merging.Inv where
  select := by unfold State.selectLegal; decide +kernel
  klass := by unfold State.classKept; decide +kernel
  flags := by unfold State.flagsLegal; decide +kernel
  context := fun _ => merging_normal
  packet := by unfold State.packetFlushed; decide +kernel
  registers := by unfold State.registersFlushed; decide +kernel
  symbols := by unfold State.symbolsKept; decide +kernel

theorem finished_inv : finished.Inv where
  select := by unfold State.selectLegal; decide +kernel
  klass := by unfold State.classKept; decide +kernel
  flags := by unfold State.flagsLegal; decide +kernel
  context := fun _ => merging_normal
  packet := by unfold State.packetFlushed; decide +kernel
  registers := by unfold State.registersFlushed; decide +kernel
  symbols := by unfold State.symbolsKept; decide +kernel

/-- The invariant does not look at the turns to come. -/
theorem finished_agenda_inv (turns : List Turn) : { finished with agenda := turns }.Inv :=
  ⟨finished_inv.select, finished_inv.klass, finished_inv.flags, finished_inv.context, finished_inv.packet,
    finished_inv.registers, finished_inv.symbols⟩

theorem witness_DecodeEncodeAgree : (Instr.rdSym 161 255).wellFormed = true ∧ (Instr.merge 5).wellFormed = true ∧
    (Instr.wrIgnored 0x1FF 0).wellFormed = true := by decide

theorem witness_EncodeDecodeAgree : decode [0x62, 0x03, 0x02] = .ok (.wrCallIn 3 0x62) ∧
    decode [0x45] = .ok (.merge 5) ∧ decode [] = .ok .reset := ⟨rfl, rfl, rfl⟩

/-- One state for each of the four clauses. -/
theorem witness_StepRunsDecoded :
    { State.reset with agenda := [.host 0x21901] }.agenda = Turn.host 0x21901 :: [] ∧
    { State.reset with agenda := [.reset] }.agenda = Turn.reset :: [] ∧
    (merging.agenda = [] ∧ merging.phase ≠ phIdle ∧ decodeSelect (merging.phase ++ merging.mtype) = .ok (.merge 1)) ∧
    (State.reset.agenda = [] ∧ State.reset.phase = phIdle) := ⟨rfl, rfl, ⟨rfl, by decide, rfl⟩, rfl, rfl⟩

/-- Each reserved case at a boundary, and a state that is not stuck. -/
theorem witness_StuckExactlyAtReserved :
    (∀ s ∈ [{ State.reset with phase := 9#4 }, { merging with mtype := 6#3 }, { State.reset with phase := phHash },
      { State.reset with phase := phField }], s.agenda = [] ∧ (match step s with | .fault _ => true | _ => false) = true) ∧
    (match step { merging with mtype := 5#3 } with | .fault _ => true | _ => false) = false := by decide +kernel

theorem witness_StepKeepsInvariant : merging.Inv ∧ ∃ t, step merging = .next t := ⟨merging_inv, _, rfl⟩

theorem witness_InvariantNeverStops : merging.Inv ∧ finished.Inv := ⟨merging_inv, finished_inv⟩

/-- The three clauses: `RR99`, `RR99XX`, and a letter one too far. -/
theorem witness_NormLocator :
    (∀ l ∈ ["RR99", "aa00"], locLen (locOf l) = 4 ∧ locFourOk (locOf l) = true) ∧
    (∀ l ∈ ["RR99XX", "aa00aa"], locLen (locOf l) = 6 ∧ locFourOk (locOf l) = true ∧
      isSubsquareLetter (locOf l)[4] = true ∧ isSubsquareLetter (locOf l)[5] = true) ∧
    (∀ l ∈ ["SR99", "FN42YA", "FN4", ""], normLoc (locOf l) = fallbackLoc) := by decide +kernel

/-- Both clauses, at their boundary. -/
theorem witness_NormPowerIsGreatestLegal : -30 ≤ (BitVec.ofInt 8 (-30)).toInt ∧ (BitVec.ofInt 8 (-31)).toInt < -30 := by
  decide

theorem witness_NormPowerOverIntegers : (-30 : Int) ≤ -30 ∧ (-31 : Int) < -30 ∧ (-31 : Int) ≤ -30 := by decide

theorem witness_NormalizationIdempotent : ∃ t, exec (.norm 0) (ctx "k1abc" "fn42" 36) = .next t := ⟨_, rfl⟩

theorem witness_NormEstablishesFormats : ∃ t, exec (.norm 0) (ctx "k1abc" "fn42" 36) = .next t := ⟨_, rfl⟩

/-- The four clauses, with the bracket and the slash at both ends of their ranges. -/
theorem witness_ClassChoosesType :
    ((callOf "<>")[0] = 0x3C#8 ∧ isFirstClose (callOf "<>") 1 ∧ isFirstClose (callOf "<AB1CDEFGHI>") 11) ∧
    ((callOf "<K1ABC")[0] = 0x3C#8 ∧ lacks (callOf "<K1ABC") 1 0x3E#8) ∧
    ((callOf "K1ABC")[0] ≠ 0x3C#8 ∧ lacks (callOf "K1ABC") 0 0x2F#8) ∧
    ((callOf "/4")[0] ≠ 0x3C#8 ∧ isFirstSlash (callOf "/4") 0 ∧ isFirstSlash (callOf "ABCDEFGHIJK/") 11) :=
  ⟨⟨by decide +kernel, (closeIndex_eq_some_iff _ _).1 (by decide +kernel),
      (closeIndex_eq_some_iff _ _).1 (by decide +kernel)⟩,
    ⟨by decide +kernel, (closeIndex_eq_none_iff _).1 (by decide +kernel)⟩,
    ⟨by decide +kernel, (slashIndex_eq_none_iff _).1 (by decide +kernel)⟩,
    ⟨by decide +kernel, (slashIndex_eq_some_iff _ _).1 (by decide +kernel),
      (slashIndex_eq_some_iff _ _).1 (by decide +kernel)⟩⟩

theorem witness_ErrorEntry : unclosed.done = false ∧ unclosed.call[0] = 0x3C#8 ∧ lacks unclosed.call 1 0x3E#8 :=
  ⟨rfl, by decide +kernel, (closeIndex_eq_none_iff _).1 (by decide +kernel)⟩

theorem witness_ErrorOnlyFromClass : (after (.classify 0) unclosed).map (·.err) = some true ∧ unclosed.err = false := by
  decide +kernel

/-- Idle states on both sides of the equivalence. -/
theorem witness_ErrorCauseOnInput :
    (∀ call ∈ ["<K1ABC", "<", "<>", "K1ABC", "K1ABC>"], { State.reset with callIn := rawOf call }.phase = phIdle) ∧
    ((rawOf "<K1ABC")[0] = 0x3C#8 ∧ lacks (rawOf "<K1ABC") 1 0x3E#8) ∧ ¬ lacks (rawOf "<>") 1 0x3E#8 ∧
    (rawOf "K1ABC")[0] ≠ 0x3C#8 :=
  ⟨fun _ _ => rfl, ⟨by decide +kernel, (closeIndex_eq_none_iff _).1 (by decide +kernel)⟩,
    fun h => h 1 (by decide) (by decide) (by decide +kernel), by decide +kernel⟩

theorem witness_HashIsHashlittle : isFirstClose classifying.call 6 ∧ isFirstClose (callOf "<>") 1 :=
  ⟨(closeIndex_eq_some_iff _ _).1 (by decide +kernel), (closeIndex_eq_some_iff _ _).1 (by decide +kernel)⟩

theorem witness_HashWithoutBracketCompletes : lacks unclosed.call 1 0x3E#8 :=
  (closeIndex_eq_none_iff _).1 (by decide +kernel)

theorem witness_FieldSingleSuffix : isFirstSlash (callOf "K1ABC/4") 5 :=
  (slashIndex_eq_some_iff _ _).1 (by decide +kernel)

theorem witness_FieldTwoSuffix : isFirstSlash (callOf "K1ABC/12") 5 :=
  (slashIndex_eq_some_iff _ _).1 (by decide +kernel)

theorem witness_FieldPrefix : isFirstSlash (callOf "PJ4/K1ABC") 3 ∧ isFirstSlash (callOf "/K1ABC") 0 :=
  ⟨(slashIndex_eq_some_iff _ _).1 (by decide +kernel), (slashIndex_eq_some_iff _ _).1 (by decide +kernel)⟩

theorem witness_FieldWithoutSlashCompletes : lacks (callOf "K1ABC") 0 0x2F#8 :=
  (slashIndex_eq_none_iff _).1 (by decide +kernel)

/-- A normalized identity with a slash, for the clauses of the FIELD.T2 operations; every clause's operation
completes on it. -/
theorem witness_MarkerInLowBits : (ctx "K1ABC/4" "FN42" 60).contextNormal ∧ isFirstSlash (callOf "K1ABC/4") 5 ∧
    ∀ i ∈ [Instr.fieldT1, .fieldT2S1, .fieldT2S2, .fieldT2P, .fieldT3],
      (after i (ctx "K1ABC/4" "FN42" 60)).isSome = true :=
  ⟨by unfold State.contextNormal; decide +kernel, (slashIndex_eq_some_iff _ _).1 (by decide +kernel), by decide +kernel⟩

/-- The locators of the least and the greatest code. -/
theorem witness_LocatorCodeNeverWraps : (ctx "K1ABC" "RA90" (-30)).contextNormal ∧ (ctx "K1ABC" "AR09" 60).contextNormal := by
  unfold State.contextNormal; decide +kernel

theorem witness_PacketBitStream : ∃ t, exec (.packb 0) merging = .next t := ⟨_, rfl⟩

/-- Two packets that differ in the seven unread bits. -/
theorem witness_ConvolutionIgnoresTail :
    ∃ s s' : State, s.pkt ≠ s'.pkt ∧ (∀ k : Fin 10, s.pkt[k] = s'.pkt[k]) ∧ s.pkt[10].getLsbD 7 = s'.pkt[10].getLsbD 7 :=
  ⟨State.reset, { State.reset with pkt := #v[0, 0, 0, 0, 0, 0, 0, 0, 0, 0, 0x7F] }, by decide +kernel⟩

theorem witness_ConvolutionLinear : ∃ x y z : State, x.pkt ≠ y.pkt ∧ ∀ k : Fin 11, z.pkt[k] = x.pkt[k] ^^^ y.pkt[k] :=
  ⟨{ State.reset with pkt := Vector.replicate 11 0x0F#8 }, { State.reset with pkt := Vector.replicate 11 0xFF#8 },
    { State.reset with pkt := Vector.replicate 11 0xF0#8 }, by decide +kernel⟩

theorem witness_InterleaverIsPermutation : ∃ t, exec (.ilv 0) merging = .next t := ⟨_, rfl⟩

/-- Both sides of the condition, at the ends of the symbols' numbers. -/
theorem witness_HostReadsFollowMap : finished.done = true ∧ State.reset.done = false ∧
    ¬ (0x100 ≤ (0x0FF#9 : RegNum).toNat ∧ (0x0FF#9 : RegNum).toNat ≤ 0x1A1) ∧
    ¬ (0x100 ≤ (0x1A2#9 : RegNum).toNat ∧ (0x1A2#9 : RegNum).toNat ≤ 0x1A1) := by decide

theorem witness_ReadAfterWrite : (0x018#9 : RegNum).toNat ≠ 0x019 := by decide

/-- The two clauses on indices that name no register. -/
theorem witness_HostWritesComplete : 12 ≤ (12#4).toNat ∧ 6 ≤ (6#3).toNat := by decide

theorem witness_SymbolReads : finished.done = true ∧ State.reset.done = false := ⟨rfl, rfl⟩

theorem witness_StartLatchesContext : finished.phase = phIdle ∧ merging.phase ≠ phIdle := ⟨rfl, by decide⟩

/-- Both ends of each of the four ranges. -/
theorem witness_ReservedNumbersInert :
    ∀ a ∈ [0x00C#9, 0x00F#9, 0x016#9, 0x017#9, 0x01B#9, 0x0FF#9, 0x1A2#9, 0x1FF#9],
      (0x00C ≤ a.toNat ∧ a.toNat ≤ 0x00F) ∨ (0x016 ≤ a.toNat ∧ a.toNat ≤ 0x017) ∨
        (0x01B ≤ a.toNat ∧ a.toNat ≤ 0x0FF) ∨ 0x1A2 ≤ a.toNat := by decide

theorem witness_StatusValues : merging.Inv ∧ finished.Inv := ⟨merging_inv, finished_inv⟩

/-- Every clause's register is changed by an operation the clause lets change it. -/
theorem witness_RegistersWrittenOnlyBy :
    (after (.wrCallIn 0 1) merging).map (·.callIn) ≠ some merging.callIn ∧
    (after (.wrLocIn 0 1) merging).map (·.locIn) ≠ some merging.locIn ∧
    (after (.wrPwrIn 1) merging).map (·.pwrIn) ≠ some merging.pwrIn ∧
    (after (.start 0) finished).map (·.call) ≠ some finished.call ∧
    (after (.classify 0) classifying).map (·.mtype) ≠ some classifying.mtype ∧
    (after (.merge 0) merging).map (·.done) ≠ some merging.done ∧
    (after (.classify 0) unclosed).map (·.err) ≠ some unclosed.err ∧
    (after .hash classifying).map (·.hc) ≠ some classifying.hc ∧
    (after .fieldT1 merging).map (·.mReg) ≠ some merging.mReg ∧
    (after (.packb 0) { merging with nReg := 0xF70C238 }).map (·.pkt) ≠ some merging.pkt ∧
    (after (.conv 0) { merging with pkt := Vector.replicate 11 0xFF#8 }).map (·.sBits) ≠ some merging.sBits ∧
    (after (.ilv 0) { merging with sBits := Vector.replicate 162 true }).map (·.dBits) ≠ some merging.dBits ∧
    (after (.merge 0) merging).map (·.sym) ≠ some merging.sym := by decide +kernel

/-- A sequencer's row and START's row. -/
theorem witness_PhaseTransitions : (merging.Inv ∧ ∃ t, step merging = .next t ∧ t.phase ≠ merging.phase) ∧
    ({ finished with agenda := [.host 0x21901] }.Inv ∧
      ∃ t, step { finished with agenda := [.host 0x21901] } = .next t ∧ t.phase ≠ finished.phase) :=
  ⟨⟨merging_inv, _, rfl, by decide⟩, finished_agenda_inv _, _, rfl, by decide⟩

/-- A step that keeps `DONE`, one that takes it away by START, one by reset. -/
theorem witness_SymbolsStayWhileDone : (∀ turns, { finished with agenda := turns }.Inv) ∧ finished.done = true ∧
    (∃ t, step finished = .next t ∧ t.done = true) ∧
    (∃ t, step { finished with agenda := [.host 0x21901] } = .next t ∧ t.done = false) ∧
    (∃ t, step { finished with agenda := [.reset] } = .next t ∧ t.done = false) :=
  ⟨finished_agenda_inv, rfl, ⟨_, rfl, rfl⟩, ⟨_, rfl, rfl⟩, ⟨_, rfl, rfl⟩⟩

theorem witness_HostCannotTouchEncode :
    { merging with agenda := [.host 0x21901, .seq] }.agenda = .host 0x21901 :: [.seq] ∧ merging.phase ≠ phIdle :=
  ⟨rfl, by decide⟩

/-- Two states with different input registers, one with a listed turn and one with an empty agenda. -/
theorem witness_SequencerReadsOnlyContext : ∃ s s' t : State, s.callIn ≠ s'.callIn ∧ s.sameEncode s' ∧
    s.freeCount = s'.freeCount ∧ s.agenda.head? = some .seq ∧ s'.agenda = [] ∧ step s = .next t :=
  ⟨{ merging with agenda := [.seq] }, { merging with callIn := rawOf "W1AW" }, _, by decide +kernel,
    ⟨rfl, rfl, rfl, rfl, rfl, rfl, rfl, rfl, rfl, rfl, rfl, rfl, rfl, rfl, rfl, rfl, rfl, rfl, rfl, rfl⟩, rfl, rfl, rfl, rfl⟩

/-- The word of START. -/
def startWord : Hacc := accessWord true 0x019#9 (0#7 ++ 1#1)

/-- An idle state with these inputs, START and then these turns at hand. -/
def starting (call loc : String) (turns : List Turn) : State :=
  { State.reset with callIn := rawOf call, locIn := locOf loc, agenda := .host startWord :: turns }

/-- Eight sequencer turns with a host write and a read among them. -/
def quietTurns : List Turn := [.seq, wrTurn 0 0x58#8, .seq, .seq, pollTurn, .seq, .seq, .seq, .seq, .seq]

/-- Idle states for each of the three counts. -/
theorem witness_EncodeTakesExactSteps :
    (∀ call ∈ ["k1abc", "<k1abc>", "<k1abc"], (starting call "fn42" (List.replicate 8 .seq)).phase = phIdle ∧
      (starting call "fn42" (List.replicate 8 .seq)).agenda =
        .host (accessWord true 0x019#9 (0#7 ++ 1#1)) :: List.replicate 8 .seq) ∧
    encodeSteps (rawOf "k1abc") = 7 ∧ encodeSteps (rawOf "<k1abc>") = 8 ∧ encodeSteps (rawOf "<k1abc") = 2 :=
  ⟨fun _ _ => ⟨rfl, rfl⟩, by decide +kernel⟩

/-- An idle state with quiet turns for each case of ENC. -/
theorem witness_EncodeIsEnc :
    (∀ call ∈ ["k1abc", "<k1abc"], (starting call "fn42" quietTurns).phase = phIdle ∧
      (starting call "fn42" quietTurns).agenda = .host (accessWord true 0x019#9 (0#7 ++ 1#1)) :: quietTurns) ∧
    (∀ u ∈ quietTurns, u.quiet = true) ∧ 8 ≤ seqCount quietTurns ∧
    (enc (rawOf "k1abc") (locOf "fn42") 0#8).isSome = true ∧ (enc (rawOf "<k1abc") (locOf "fn42") 0#8).isNone = true :=
  ⟨fun _ _ => ⟨rfl, rfl⟩, by decide +kernel⟩

/-- Two idle states with the same inputs and different registers, with host accesses, a reset and a second START to
come. -/
theorem witness_EncodeForgetsHistory : ∃ (s s' : State) (turns : List Turn), s ≠ s' ∧ s.phase = phIdle ∧
    s'.phase = phIdle ∧ s.callIn = s'.callIn ∧ s.locIn = s'.locIn ∧ s.pwrIn = s'.pwrIn ∧
    s.agenda = .host (accessWord true 0x019#9 (0#7 ++ 1#1)) :: turns ∧ s'.agenda = s.agenda ∧ turns.length = 13 :=
  ⟨{ State.reset with agenda := .host startWord :: (quietTurns ++ [.host startWord, .reset, .seq]) },
    { finished with agenda := .host startWord :: (quietTurns ++ [.host startWord, .reset, .seq]) },
    quietTurns ++ [.host startWord, .reset, .seq],
    fun h => absurd (congrArg State.done h) (by decide), rfl, rfl, rfl, rfl, rfl, rfl, rfl, rfl⟩

/-- Powers at both ends of the range; a callsign of twelve characters and one of none. -/
theorem witness_IdentityWritesLand : (-128 : Int) ≤ -128 ∧ (127 : Int) ≤ 127 ∧
    (callsignTurns (bytesOf "ABCDEFGHIJKL") ++ locatorTurns (bytesOf "FN42") ++ [powerTurn 127]).length = 19 ∧
    (callsignTurns [] ++ locatorTurns [] ++ [powerTurn (-128)]).length = 19 := by decide +kernel

end Sys2Proof.Tests
end

section
/-! What one operation does to the state, said once: the phase it belongs to, and every next state it can answer. -/

namespace Sys2Proof

open Machine

/-- The phase whose select words stand for the operation; host operations and RESET belong to no phase
(30_encoding.md R107). -/
def Instr.phaseCode : Instr → Option (BitVec 4)
  | .norm _ => some phNorm
  | .classify _ => some phClass
  | .hash => some phHash
  | .fieldT1 | .fieldT2S1 | .fieldT2S2 | .fieldT2P | .fieldT3 => some phField
  | .packb _ => some phPackb
  | .conv _ => some phConv
  | .ilv _ => some phIlv
  | .merge _ => some phMerge
  | _ => none

/-- The five FIELD operations (43_packer.md R210). -/
def Instr.IsField (i : Instr) : Prop :=
  i = .fieldT1 ∨ i = .fieldT2S1 ∨ i = .fieldT2S2 ∨ i = .fieldT2P ∨ i = .fieldT3

theorem Instr.IsField.phaseCode {i : Instr} (h : i.IsField) : i.phaseCode = some phField := by
  rcases h with rfl | rfl | rfl | rfl | rfl <;> rfl

/-- A select word decodes to an operation of the phase in its field (30_encoding.md R105). -/
theorem decodeSelect_phaseCode {w : OpSel} {i : Instr} (h : decodeSelect w = .ok i) :
    i.phaseCode = some (phaseField w) := by
  rcases decodeSelect_cases h with
    ⟨hp, rfl⟩ | ⟨hp, rfl⟩ | ⟨hp, -, rfl⟩ | ⟨hp, -, rfl⟩ | ⟨hp, -, rfl⟩ | ⟨hp, -, rfl⟩ | ⟨hp, -, rfl⟩ |
    ⟨hp, -, rfl⟩ | ⟨hp, rfl⟩ | ⟨hp, rfl⟩ | ⟨hp, rfl⟩ | ⟨hp, rfl⟩ <;> rw [hp] <;> rfl

/-- A host access word is never a sequencer operation (30_encoding.md R106, R107). -/
theorem decodeAccess_phaseCode (w : Hacc) : (decodeAccess w).phaseCode = none := by
  simp only [decodeAccess, decodeWrite, decodeRead]
  split_ifs <;> rfl

end Sys2Proof

namespace Sys2Proof.Machine

/-- `Effect s i t`: operation `i` can take state `s` to `t`. Where the operations of one kind write the same
registers with values that do not matter to what they leave alone, one constructor stands for them all. -/
inductive Effect (s : State) : Instr → State → Prop
  | norm (m : BitVec 3) :
      Effect s (.norm m) (State.goto
        { s with
          call := normCall s.call
          loc := normLoc s.loc
          pwr := BitVec.ofInt 8 (normPwr s.pwr.toInt) } phClass)
  | classBracketed (m : BitVec 3) (g : Nat) (hopen : opensBracket s.call = true)
      (hclose : closeIndex s.call = some g) :
      Effect s (.classify m) (State.goto { s with mtype := mtT3 } phHash)
  | classUnclosed (m : BitVec 3) (hopen : opensBracket s.call = true) (hclose : closeIndex s.call = none) :
      Effect s (.classify m) (State.raiseNoClose { s with mtype := mtT3 })
  | classPlain (m : BitVec 3) (hopen : opensBracket s.call = false) :
      Effect s (.classify m) (State.goto { s with mtype := messageClass s.call } phField)
  | hash (n : Nat) (abc : Word32 × Word32 × Word32) :
      Effect s .hash ((State.writeHash { s with freeCount := n } abc).goto phField)
  | field (i : Instr) (hi : i.IsField) (n : Nat) (x y : Int) :
      Effect s i ((State.writeFields { s with freeCount := n } x y).goto phPackb)
  | packb (m : BitVec 3) : Effect s (.packb m) (State.goto { s with pkt := packBytes s.nReg s.mReg } phConv)
  | conv (m : BitVec 3) :
      Effect s (.conv m) (State.goto
        { s with sBits := (convolve s.pkt).1, reg0 := (convolve s.pkt).2.1, reg1 := (convolve s.pkt).2.2 } phIlv)
  | ilv (m : BitVec 3) : Effect s (.ilv m) (State.goto { s with dBits := interleave s.sBits s.dBits } phMerge)
  | merge (m : BitVec 3) :
      Effect s (.merge m) ((State.setDone { s with sym := mergeSymbols s.dBits }).goto phIdle)
  | wrCallIn (k : BitVec 4) (v : Byte) : Effect s (.wrCallIn k v) (s.writeCallIn k.toNat v)
  | wrLocIn (k : BitVec 3) (v : Byte) : Effect s (.wrLocIn k v) (s.writeLocIn k.toNat v)
  | wrPwrIn (v : Byte) : Effect s (.wrPwrIn v) (s.writePwrIn v)
  | start (x : BitVec 7) (hidle : s.phase = phIdle) :
      Effect s (.start x) (State.goto { s.latchContext.clearFlags with mtype := mtNone } phNorm)
  | reset : Effect s .reset { State.reset with agenda := s.agenda, rdata := s.rdata, freeCount := s.freeCount }
  /-- Reads, writes without effect, and START while busy. -/
  | passive (i : Instr) (hi : i.phaseCode = none) (v : Byte) (n : Nat) :
      Effect s i { s with rdata := v, freeCount := n }

/-- A FIELD operation on a searched index, found or free (log 12). -/
theorem Effect.field_takeIndex {s : State} {i : Instr} (hi : i.IsField) (o : Option Nat) (x y : Int) :
    Effect s i (((s.takeIndex o).2.writeFields x y).goto phPackb) := by
  rcases s.takeIndex_cases o with ⟨k, -, h⟩ | ⟨-, h⟩ <;> rw [h]
  · exact .field i hi s.freeCount x y
  · exact .field i hi (s.freeCount + 1) x y

theorem classify_effect {s t : State} (m : BitVec 3) (h : exec (.classify m) s = .next t) :
    Effect s (.classify m) t := by
  simp only [exec, execClassify] at h
  split at h
  · next hopen =>
    split at h
    · next g hclose => cases h; exact .classBracketed m g hopen hclose
    · next hclose => cases h; exact .classUnclosed m hopen hclose
  · next hopen => cases h; exact .classPlain m (by simpa using hopen)

theorem hash_effect {s t : State} (h : exec .hash s = .next t) : Effect s .hash t := by
  simp only [exec, execHash] at h
  split at h
  · cases h; exact .hash s.freeCount _
  · cases h; exact .hash (s.freeCount + 3) _

theorem start_effect {s t : State} (x : BitVec 7) (h : exec (.start x) s = .next t) : Effect s (.start x) t := by
  simp only [exec, execStart] at h
  split at h
  · cases h; exact .passive _ rfl s.rdata s.freeCount
  · next hbusy => cases h; exact .start x (by simpa [State.busy] using hbusy)

theorem rdSym_effect {s t : State} (k : BitVec 8) (x : Byte) (h : exec (.rdSym k x) s = .next t) :
    Effect s (.rdSym k x) t := by
  simp only [exec, execRdSym] at h
  split at h
  · cases h; exact .passive _ rfl _ s.freeCount
  · cases h; exact .passive _ rfl _ (s.freeCount + 1)

/-- All that an operation can do, for every operation of the table (30_encoding.md R107). -/
theorem exec_effect {i : Instr} {s t : State} (h : exec i s = .next t) : Effect s i t := by
  cases i with
  | norm m => cases h; exact .norm m
  | classify m => exact classify_effect m h
  | hash => exact hash_effect h
  | fieldT1 => cases h; exact .field _ (by simp [Instr.IsField]) s.freeCount _ _
  | fieldT2S1 => cases h; exact Effect.field_takeIndex (by simp [Instr.IsField]) _ _ _
  | fieldT2S2 => cases h; exact Effect.field_takeIndex (by simp [Instr.IsField]) _ _ _
  | fieldT2P => cases h; exact Effect.field_takeIndex (by simp [Instr.IsField]) _ _ _
  | fieldT3 => cases h; exact .field _ (by simp [Instr.IsField]) s.freeCount _ _
  | packb m => cases h; exact .packb m
  | conv m => cases h; exact .conv m
  | ilv m => cases h; exact .ilv m
  | merge m => cases h; exact .merge m
  | wrCallIn k v => cases h; exact .wrCallIn k v
  | wrLocIn k v => cases h; exact .wrLocIn k v
  | wrPwrIn v => cases h; exact .wrPwrIn v
  | start x => exact start_effect x h
  | rdSym k x => exact rdSym_effect k x h
  | reset => cases h; exact .reset
  | _ => cases h; exact .passive _ rfl _ s.freeCount

/-! ## Which operation a step runs -/

/-- A step passes the turn, or runs one operation: a sequencer operation only in its own phase
(30_encoding.md R105). -/
theorem step_selects {s t : State} (h : step s = .next t) :
    t = s.endTurn ∨
      ∃ i, exec i s.endTurn = .next t ∧ ∀ p, i.phaseCode = some p → s.phase = p := by
  obtain ⟨-, ht⟩ | ⟨w, i, hw, hi, ht⟩ := step_cases h
  · exact .inl ht
  refine .inr ⟨i, ht, fun p hp => ?_⟩
  obtain ⟨rfl, -, -⟩ | ⟨v, rfl, -⟩ | ⟨rfl, -⟩ := fetch_cases hw
  · rw [decodeSelect_phaseCode hi, State.opsel, phaseField_append] at hp
    exact Option.some.inj hp
  · cases hi; rw [decodeAccess_phaseCode] at hp; cases hp
  · cases hi; cases hp

end Sys2Proof.Machine
end

section
/-! What PACKB leaves in the packet and CONV in its registers: the flush bits of the packet shift every message bit but
the last out of the registers (43_packer.md R241, 44_convolutional.md R264). -/

namespace Sys2Proof.Machine

/-! ## The shift registers -/

theorem shiftIn_getLsbD_zero (r : Word32) (b : Bool) : (shiftIn r b).getLsbD 0 = b := by
  simp [shiftIn]

theorem shiftIn_getLsbD_succ (r : Word32) (b : Bool) (j : Nat) (hj : j < 31) :
    (shiftIn r b).getLsbD (j + 1) = r.getLsbD j := by
  simp [shiftIn, show j + 1 < 32 by omega, BitVec.getLsbD_eq_getElem (show j < 32 by omega)]

/-- The registers after the loop of CONV: each has absorbed the bits on its own (44_convolutional.md R262). -/
theorem convRun_registers (bs : List Bool) (r0 r1 : Word32) :
    (convRun bs r0 r1).2 = (bs.foldl shiftIn r0, bs.foldl shiftIn r1) := by
  induction bs generalizing r0 r1 with
  | nil => rfl
  | cons b bs ih => exact ih _ _

/-- A register that has absorbed `n` bits holds the latest of them in bit 0, the one before in bit 1, and so on. -/
theorem foldl_shiftIn_getLsbD (f : Nat → Bool) (r : Word32) (n j : Nat) (hj : j < 32) (hn : j < n) :
    (((List.range n).map f).foldl shiftIn r).getLsbD j = f (n - 1 - j) := by
  induction n generalizing j with
  | zero => omega
  | succ n ih =>
    rw [List.range_succ, List.map_append, List.foldl_append]
    cases j with
    | zero => exact shiftIn_getLsbD_zero _ _
    | succ j =>
      calc (shiftIn (((List.range n).map f).foldl shiftIn r) (f n)).getLsbD (j + 1)
          = (((List.range n).map f).foldl shiftIn r).getLsbD j := shiftIn_getLsbD_succ _ _ _ (by omega)
        _ = f (n - 1 - j) := ih j (by omega) (by omega)
        _ = f (n + 1 - 1 - (j + 1)) := by congr 1; omega

theorem convolve_registers (pkt : Vector Byte 11) :
    (convolve pkt).2 = ((convInput pkt).foldl shiftIn 0#32, (convInput pkt).foldl shiftIn 0#32) :=
  convRun_registers _ _ _

theorem convolve_registers_eq (pkt : Vector Byte 11) : (convolve pkt).2.1 = (convolve pkt).2.2 := by
  rw [convolve_registers]

/-- The last 32 of the 81 input bits stand in the register (44_convolutional.md R263). -/
theorem convolve_register_getLsbD (pkt : Vector Byte 11) (j : Nat) (hj : j < 32) :
    (convolve pkt).2.1.getLsbD j = streamBit pkt (80 - j) := by
  rw [convolve_registers]
  exact foldl_shiftIn_getLsbD (streamBit pkt) _ 81 j hj (by omega)

/-! ## The flush bits -/

/-- `PKT[6][5:0]` and `PKT[7..10]` are 0 (43_packer.md R241). -/
def FlushBitsZero (pkt : Vector Byte 11) : Prop :=
  pkt[6].extractLsb' 0 6 = 0#6 ∧ pkt[7] = 0#8 ∧ pkt[8] = 0#8 ∧ pkt[9] = 0#8 ∧ pkt[10] = 0#8

theorem packBytes_flushBitsZero (n : BitVec 28) (m : BitVec 22) : FlushBitsZero (packBytes n m) := by
  refine ⟨?_, rfl, rfl, rfl, rfl⟩
  exact BitVec.extractLsb'_append_eq_right

/-- Stream bits 50 to 80 are 0 in a packet with zero flush bits (20_memory.md R61). -/
theorem streamBit_of_flushBitsZero {pkt : Vector Byte 11} (h : FlushBitsZero pkt) (t : Nat) (h50 : 50 ≤ t)
    (h80 : t ≤ 80) : streamBit pkt t = false := by
  obtain ⟨h6, h7, h8, h9, h10⟩ := h
  have hbyte : t / 8 = 6 ∨ t / 8 = 7 ∨ t / 8 = 8 ∨ t / 8 = 9 ∨ t / 8 = 10 := by omega
  rcases hbyte with hb | hb | hb | hb | hb <;> rw [streamBit, hb]
  · have hbit : (pkt[6].extractLsb' 0 6).getLsbD (7 - t % 8) = false := by rw [h6]; simp
    have hlow : 7 - t % 8 < 6 := by omega
    simpa [hlow] using hbit
  · simp [h7]
  · simp [h8]
  · simp [h9]
  · simp [h10]

/-- Both registers hold the last message bit at the top and nothing else (44_convolutional.md R264). -/
def ShiftedOut (pkt : Vector Byte 11) (r0 r1 : Word32) : Prop :=
  r0 = r1 ∧ r0 = (if pkt[6].getLsbD 6 then 0x80000000#32 else 0#32)

/-- The flush bits shift the other message bits out (44_convolutional.md R264). -/
theorem convolve_shiftedOut {pkt : Vector Byte 11} (h : FlushBitsZero pkt) :
    ShiftedOut pkt (convolve pkt).2.1 (convolve pkt).2.2 := by
  refine ⟨convolve_registers_eq pkt, ?_⟩
  apply BitVec.eq_of_getLsbD_eq
  intro j hj
  rw [convolve_register_getLsbD pkt j hj]
  by_cases hlast : j = 31
  · have hbit : streamBit pkt 49 = pkt[6].getLsbD 6 := by simp [streamBit]
    subst hlast
    rw [hbit]
    cases pkt[6].getLsbD 6 <;> rfl
  · rw [streamBit_of_flushBitsZero h _ (by omega) (by omega)]
    have htop : (0x80000000#32).getLsbD j = false := by
      rw [show (0x80000000#32) = BitVec.twoPow 32 31 from rfl, BitVec.getLsbD_twoPow]
      simp
      omega
    split
    · exact htop.symm
    · simp

end Sys2Proof.Machine
end

section
/-! What NORM establishes, part by part (10_state.md R25, 30_encoding.md R92, R93). -/

namespace Sys2Proof.Machine

theorem isNormalChar_normChar (c : Byte) : isNormalChar (normChar c) = true := by
  rw [normChar]
  split
  · next hmark =>
    simp only [Bool.or_eq_true] at hmark
    rcases hmark with (h | h) | h <;> simp [isNormalChar, h]
  · split
    · next halnum =>
      rcases Bool.or_eq_true_iff.mp halnum with h | h <;> simp [isNormalChar, h]
    · rfl

theorem isUpper_upcase_of_isFieldLetter {c : Byte} (h : isFieldLetter c = true) :
    isUpper (upcase c) = true ∧ (upcase c).toNat ≤ 0x52 := by
  simp only [isFieldLetter, decide_eq_true_eq] at h
  exact ⟨by simp only [isUpper, decide_eq_true_eq]; omega, h.2⟩

theorem isUpper_upcase_of_isSubsquareLetter {c : Byte} (h : isSubsquareLetter c = true) :
    isUpper (upcase c) = true ∧ (upcase c).toNat ≤ 0x58 := by
  simp only [isSubsquareLetter, decide_eq_true_eq] at h
  exact ⟨by simp only [isUpper, decide_eq_true_eq]; omega, h.2⟩

/-- Four characters that pass the check make a normalized locator with either ending (41_normalizer.md R164). -/
theorem isNormalLoc_of_locFourOk {raw : Vector Byte 6} (h : locFourOk raw = true) {c d : Byte}
    (hlast : (c == chNul && d == chNul ||
      (isUpper c && decide (c.toNat ≤ 0x58) && isUpper d && decide (d.toNat ≤ 0x58))) = true) :
    isNormalLoc #v[upcase raw[0], upcase raw[1], raw[2], raw[3], c, d] = true := by
  simp only [locFourOk, Bool.and_eq_true] at h
  obtain ⟨⟨⟨h0, h1⟩, h2⟩, h3⟩ := h
  obtain ⟨hu0, hr0⟩ := isUpper_upcase_of_isFieldLetter h0
  obtain ⟨hu1, hr1⟩ := isUpper_upcase_of_isFieldLetter h1
  simp only [isNormalLoc, Bool.and_eq_true, Bool.or_eq_true, decide_eq_true_eq] at hlast ⊢
  exact ⟨⟨⟨⟨⟨⟨hu0, hr0⟩, hu1⟩, hr1⟩, h2⟩, h3⟩, hlast⟩

theorem isNormalLoc_fallbackLoc : isNormalLoc fallbackLoc = true := by decide

theorem isNormalLoc_normLoc (raw : Vector Byte 6) : isNormalLoc (normLoc raw) = true := by
  rw [normLoc]
  split
  · split
    · next hfour => exact isNormalLoc_of_locFourOk hfour rfl
    · exact isNormalLoc_fallbackLoc
  · split
    · split
      · next hsix =>
        simp only [Bool.and_eq_true] at hsix
        obtain ⟨⟨hfour, h4⟩, h5⟩ := hsix
        obtain ⟨hu4, hr4⟩ := isUpper_upcase_of_isSubsquareLetter h4
        obtain ⟨hu5, hr5⟩ := isUpper_upcase_of_isSubsquareLetter h5
        exact isNormalLoc_of_locFourOk hfour (by simp [hu4, hr4, hu5, hr5])
      · exact isNormalLoc_fallbackLoc
    · exact isNormalLoc_fallbackLoc

/-- Walking a table and keeping some entry answers the start value or an entry. -/
theorem foldl_keep_mem (p : Int) (vs : List Int) (best : Int) :
    vs.foldl (fun best v => if v ≤ p then v else best) best ∈ best :: vs := by
  induction vs generalizing best with
  | nil => simp
  | cons v vs ih =>
    rw [List.foldl_cons]
    split
    · exact List.mem_cons_of_mem _ (ih v)
    · rcases List.mem_cons.mp (ih best) with h | h
      · rw [h]; exact List.mem_cons_self
      · exact List.mem_cons_of_mem _ (List.mem_cons_of_mem _ h)

/-- NORMPWR answers a legal power (41_normalizer.md R167). -/
theorem normPwr_mem (p : Int) : normPwr p ∈ pwrTable := by
  rcases List.mem_cons.mp (foldl_keep_mem p pwrTable (-30)) with h | h
  · rw [normPwr, h]; decide
  · exact h

/-- Every legal power fits a byte. -/
theorem toInt_ofInt_of_mem_pwrTable : ∀ v ∈ pwrTable, (BitVec.ofInt 8 v).toInt = v := by decide

/-- Settles O14: NORM makes each of the three parts of the context normal. -/
theorem normEstablishesFormats : Obligations.NormEstablishesFormats := by
  intro m s t h
  cases h
  refine ⟨fun i => ?_, isNormalLoc_normLoc s.loc, ?_⟩
  · simpa [normCall] using isNormalChar_normChar s.call[i]
  · have hmem := normPwr_mem s.pwr.toInt
    change (BitVec.ofInt 8 (normPwr s.pwr.toInt)).toInt ∈ pwrTable
    rwa [toInt_ofInt_of_mem_pwrTable _ hmem]

end Sys2Proof.Machine
end

section
/-! The invariant of the block: what it says in each phase, and that every operation keeps it in its own phase. -/

namespace Sys2Proof.Machine

/-! ## CLASS -/

/-- CLASS answers T1 to T3 (43_packer.md R214). -/
theorem messageClass_range (call : Vector Byte 12) :
    1 ≤ (messageClass call).toNat ∧ (messageClass call).toNat ≤ 5 := by
  rw [messageClass]
  split
  · decide
  · split
    · decide
    · rw [slashClass]
      split
      · decide
      · split <;> decide

theorem messageClass_of_opensBracket {call : Vector Byte 12} (h : opensBracket call = true) :
    messageClass call = mtT3 := by simp [messageClass, h]

theorem messageClass_ne_mtT3 {call : Vector Byte 12} (h : opensBracket call = false) :
    messageClass call ≠ mtT3 := by
  simp only [messageClass, h, Bool.false_eq_true, if_false]
  split
  · decide
  · rw [slashClass]
    split
    · decide
    · split <;> decide

theorem ne_mtNone_of_range {m : BitVec 3} (h : 1 ≤ m.toNat) : m ≠ mtNone := by
  rintro rfl
  exact absurd h (by decide)

/-! ## MERGE -/

theorem mergeSymbol_bits (sync data : Bool) :
    (mergeSymbol sync data).getLsbD 0 = sync ∧ (mergeSymbol sync data).getLsbD 1 = data := by
  cases sync <;> cases data <;> decide

/-! ## What the invariant says -/

/-- The three flags as they stand while busy (10_state.md R33, R37). -/
def State.FlagsClear (s : State) : Prop := s.done = false ∧ s.err = false ∧ s.errcode = 0#4

theorem State.flagsLegal.of_flagsClear {s : State} (h : s.FlagsClear) : s.flagsLegal := by
  obtain ⟨hdone, herr, hcode⟩ := h
  simp [State.flagsLegal, hdone, herr, hcode]

theorem State.Inv.flagsClear_of_busy {s : State} (hs : s.Inv) (hbusy : s.phase ≠ phIdle) : s.FlagsClear := by
  obtain ⟨hexclusive, -, -, hcode⟩ := hs.flags
  obtain ⟨hdone, herr⟩ := hexclusive (s.busy_eq_true_iff.mpr hbusy)
  exact ⟨hdone, herr, hcode herr⟩

/-- The sequencer is past CLASS. -/
def State.PastClass (s : State) : Prop := s.phase ≠ phIdle ∧ s.phase ≠ phNorm ∧ s.phase ≠ phClass

/-- Past CLASS the type is one of the five (40_encode_sequence.md R132). -/
theorem State.Inv.mtype_range {s : State} (hs : s.Inv) (hpast : s.PastClass) :
    1 ≤ s.mtype.toNat ∧ s.mtype.toNat ≤ 5 := by
  obtain ⟨hidle, hnorm, hclass⟩ := hpast
  rcases hs.select with ⟨h, -⟩ | ⟨h | h, -⟩ | ⟨-, h⟩ | ⟨-, h⟩
  · exact absurd h hidle
  · exact absurd h hnorm
  · exact absurd h hclass
  · rw [h]; decide
  · exact h

/-- At CLASS and before there is no type yet (40_encode_sequence.md R132). -/
theorem State.Inv.mtype_eq_mtNone {s : State} (hs : s.Inv) (hphase : s.phase = phNorm ∨ s.phase = phClass) :
    s.mtype = mtNone := by
  rcases hs.select with ⟨h, -⟩ | ⟨-, h⟩ | ⟨h, -⟩ | ⟨h | h | h | h | h, -⟩
  case inr.inl => exact h
  all_goals rcases hphase with h' | h' <;> rw [h'] at h <;> exact absurd h (by decide)

/-- The invariant looks only at the registers of the encode. -/
theorem State.Inv.of_sameEncode {s t : State} (hs : s.Inv) (h : s.sameEncode t) : t.Inv := by
  obtain ⟨hcall, hloc, hpwr, hphase, hmtype, hdone, herr, hcode, -, -, -, -, -, -, hpkt, hreg0, hreg1, -, hd, hsym⟩ := h
  obtain ⟨select, klass, flags, context, packet, registers, symbols⟩ := hs
  constructor
  · simpa only [State.selectLegal, hphase, hmtype] using select
  · simpa only [State.classKept, hphase, hmtype, hcall] using klass
  · simpa only [State.flagsLegal, State.busy, hphase, hdone, herr, hcode] using flags
  · simpa only [State.contextKept, State.contextNormal, hphase, hmtype, hcall, hloc, hpwr] using context
  · simpa only [State.packetFlushed, hphase, hdone, hpkt] using packet
  · simpa only [State.registersFlushed, hphase, hdone, hreg0, hreg1, hpkt] using registers
  · simpa only [State.symbolsKept, hdone, hmtype, hsym, hd] using symbols

/-! ## States the invariant holds in -/

/-- With no type and clear flags, only the context is owed, and only at CLASS: the states after reset, after an accepted
START and after NORM. -/
theorem State.Inv.of_noType {t : State} (p : BitVec 4) (hphase : t.phase = p)
    (hp : p = phIdle ∨ p = phNorm ∨ p = phClass) (hmtype : t.mtype = mtNone) (hflags : t.FlagsClear)
    (hcontext : p = phClass → t.contextNormal) : t.Inv := by
  subst hphase
  refine ⟨?_, fun h => absurd hmtype h, .of_flagsClear hflags, ?_, ?_, ?_, ?_⟩
  · exact hp.imp (⟨·, by rw [hmtype]; decide⟩) (.inl ⟨·, hmtype⟩)
  · exact fun h => hcontext (h.resolve_right (not_not_intro hmtype))
  · rcases hp with h | h | h <;>
      simp [State.packetFlushed, hflags.1, h, phIdle, phNorm, phClass, phConv, phIlv, phMerge]
  · rcases hp with h | h | h <;>
      simp [State.registersFlushed, hflags.1, h, phIdle, phNorm, phClass, phIlv, phMerge]
  · simp [State.symbolsKept, hflags.1]

/-- From HASH to MERGE: the class stands, and the packet and the registers are owed by the stages that come after PACKB
and CONV. -/
theorem State.Inv.of_typed {t : State} (p : BitVec 4) (hphase : t.phase = p)
    (hselect : p = phHash ∧ t.mtype = mtT3 ∨
      (p = phField ∨ p = phPackb ∨ p = phConv ∨ p = phIlv ∨ p = phMerge) ∧ 1 ≤ t.mtype.toNat ∧ t.mtype.toNat ≤ 5)
    (hflags : t.FlagsClear) (hclass : t.classKept) (hcontext : t.contextNormal)
    (hpacket : p = phConv ∨ p = phIlv ∨ p = phMerge → FlushBitsZero t.pkt)
    (hregisters : p = phIlv ∨ p = phMerge → ShiftedOut t.pkt t.reg0 t.reg1) : t.Inv := by
  subst hphase
  refine ⟨.inr (.inr hselect), hclass, .of_flagsClear hflags, fun _ => hcontext, ?_, ?_, ?_⟩
  · simpa [State.packetFlushed, hflags.1, FlushBitsZero] using hpacket
  · simpa [State.registersFlushed, hflags.1, ShiftedOut] using hregisters
  · simp [State.symbolsKept, hflags.1]

/-! ## Each operation in its own phase -/

theorem State.Inv.norm {s : State} (hs : s.Inv) (hphase : s.phase = phNorm) {m : BitVec 3} {t : State}
    (h : exec (.norm m) s = .next t) : t.Inv := by
  have hcontext : t.contextNormal := normEstablishesFormats m s t h
  cases h
  exact .of_noType phClass rfl (.inr (.inr rfl)) (hs.mtype_eq_mtNone (.inl hphase))
    (hs.flagsClear_of_busy (by rw [hphase]; decide)) fun _ => hcontext

theorem State.Inv.reset (s : State) :
    State.Inv { State.reset with agenda := s.agenda, rdata := s.rdata, freeCount := s.freeCount } :=
  .of_noType phIdle rfl (.inl rfl) rfl ⟨rfl, rfl, rfl⟩ fun h => absurd h (by decide)

theorem State.Inv.start (s : State) :
    (State.goto { s.latchContext.clearFlags with mtype := mtNone } phNorm).Inv :=
  .of_noType phNorm rfl (.inr (.inl rfl)) rfl ⟨rfl, rfl, rfl⟩ fun h => absurd h (by decide)

section AtClass

variable {s : State} (hs : s.Inv) (hphase : s.phase = phClass)
include hs hphase

theorem State.Inv.flagsClear_atClass : s.FlagsClear := hs.flagsClear_of_busy (by rw [hphase]; decide)

theorem State.Inv.classBracketed {g : Nat} (hopen : opensBracket s.call = true) (hclose : closeIndex s.call = some g) :
    (State.goto { s with mtype := mtT3 } phHash).Inv := by
  refine .of_typed phHash rfl (.inl ⟨rfl, rfl⟩) (hs.flagsClear_atClass hphase) (fun _ => ⟨?_, fun _ _ => ?_⟩)
    (hs.context (.inl hphase)) (fun h => absurd h (by decide)) (fun h => absurd h (by decide))
  · exact (messageClass_of_opensBracket hopen).symm
  · simp [hclose]

theorem State.Inv.classPlain (hopen : opensBracket s.call = false) :
    (State.goto { s with mtype := messageClass s.call } phField).Inv :=
  .of_typed phField rfl (.inr ⟨.inl rfl, messageClass_range s.call⟩) (hs.flagsClear_atClass hphase)
    (fun _ => ⟨rfl, fun _ ht3 => absurd ht3 (messageClass_ne_mtT3 hopen)⟩)
    (hs.context (.inl hphase)) (fun h => absurd h (by decide)) (fun h => absurd h (by decide))

/-- The error (60_exceptions.md R303): idle again, with the class kept and no symbols promised. -/
theorem State.Inv.classUnclosed (hopen : opensBracket s.call = true) :
    (State.raiseNoClose { s with mtype := mtT3 }).Inv := by
  obtain ⟨hdone, -, -⟩ := hs.flagsClear_atClass hphase
  constructor
  · exact .inl ⟨rfl, (by decide : mtT3.toNat ≤ 5)⟩
  · exact fun _ => ⟨(messageClass_of_opensBracket hopen).symm, fun h => absurd rfl h⟩
  · simp [State.flagsLegal, State.busy, hdone]
  · exact fun _ => hs.context (.inl hphase)
  · simp [State.packetFlushed, hdone, phIdle, phConv, phIlv, phMerge]
  · simp [State.registersFlushed, hdone, phIdle, phIlv, phMerge]
  · simp [State.symbolsKept, hdone]

end AtClass

/-- Two states hold the same identity, type and flags. -/
def State.SameIdentity (s t : State) : Prop :=
  (t.call = s.call ∧ t.loc = s.loc ∧ t.pwr = s.pwr) ∧ t.mtype = s.mtype ∧
    t.done = s.done ∧ t.err = s.err ∧ t.errcode = s.errcode

theorem State.SameIdentity.refl (s : State) : s.SameIdentity s := ⟨⟨rfl, rfl, rfl⟩, rfl, rfl, rfl, rfl⟩

/-- A stage past CLASS that keeps identity, type and flags keeps the invariant, if it leaves the packet and the
registers as the next phase needs them. -/
theorem State.Inv.next_stage {s t : State} (hs : s.Inv) (hpast : s.PastClass) (hsame : s.SameIdentity t)
    (p : BitVec 4) (hphase : t.phase = p)
    (hstage : p = phField ∨ p = phPackb ∨ p = phConv ∨ p = phIlv ∨ p = phMerge)
    (hpacket : p = phConv ∨ p = phIlv ∨ p = phMerge → FlushBitsZero t.pkt)
    (hregisters : p = phIlv ∨ p = phMerge → ShiftedOut t.pkt t.reg0 t.reg1) : t.Inv := by
  obtain ⟨⟨hcall, hloc, hpwr⟩, hmtype, hdone, herr, hcode⟩ := hsame
  have hrange := hs.mtype_range hpast
  have htyped := ne_mtNone_of_range hrange.1
  obtain ⟨hkind, hclose⟩ := hs.klass htyped
  refine .of_typed p hphase (.inr ⟨hstage, by rwa [hmtype]⟩) ?_ (fun _ => ⟨?_, fun _ => ?_⟩) ?_ hpacket hregisters
  · simpa only [State.FlagsClear, hdone, herr, hcode] using hs.flagsClear_of_busy hpast.1
  · rw [hmtype, hcall, hkind]
  · rw [hmtype, hcall]; exact hclose hpast.1
  · simpa only [State.contextNormal, hcall, hloc, hpwr] using hs.context (.inr htyped)

theorem State.pastClass_of_phase {s : State} {p : BitVec 4} (hphase : s.phase = p) (hp : 3 ≤ p.toNat) :
    s.PastClass := by
  subst hphase
  refine ⟨?_, ?_, ?_⟩ <;> intro h <;> rw [h] at hp <;> exact absurd hp (by decide)

/-- MERGE: idle again, with the symbols made of `D` and the synchronization vector (46_sync_merger.md R292). -/
theorem State.Inv.merge {s : State} (hs : s.Inv) (hphase : s.phase = phMerge) :
    ((State.setDone { s with sym := mergeSymbols s.dBits }).goto phIdle).Inv := by
  have hpast : s.PastClass := State.pastClass_of_phase hphase (by decide)
  obtain ⟨-, herr, hcode⟩ := hs.flagsClear_of_busy hpast.1
  have hrange := hs.mtype_range hpast
  have htyped := ne_mtNone_of_range hrange.1
  constructor
  · exact .inl ⟨rfl, hrange.2⟩
  · exact fun _ => ⟨(hs.klass htyped).1, fun h => absurd rfl h⟩
  · simp [State.flagsLegal, State.busy, herr, hcode]
  · exact fun _ => hs.context (.inr htyped)
  · exact fun _ => hs.packet (.inr (.inr (.inl hphase)))
  · exact fun _ => hs.registers (.inr (.inl hphase))
  · refine fun _ => ⟨htyped, fun i => ?_⟩
    simpa [mergeSymbols] using mergeSymbol_bits (syncBit i.val) s.dBits[i]

/-- Every operation keeps the invariant, a sequencer operation in its own phase. -/
theorem exec_keeps_inv {i : Instr} {s t : State} (hs : s.Inv) (hphase : ∀ p, i.phaseCode = some p → s.phase = p)
    (h : exec i s = .next t) : t.Inv := by
  cases exec_effect h with
  | norm m => exact hs.norm (hphase _ rfl) h
  | classBracketed m g hopen hclose => exact hs.classBracketed (hphase _ rfl) hopen hclose
  | classUnclosed m hopen => exact hs.classUnclosed (hphase _ rfl) hopen
  | classPlain m hopen => exact hs.classPlain (hphase _ rfl) hopen
  | hash n abc =>
    exact hs.next_stage (State.pastClass_of_phase (hphase _ rfl) (by decide)) (.refl s) phField rfl (by decide)
      (fun h => absurd h (by decide)) (fun h => absurd h (by decide))
  | field _ hi n x y =>
    exact hs.next_stage (State.pastClass_of_phase (hphase _ hi.phaseCode) (by decide)) (.refl s) phPackb rfl
      (by decide) (fun h => absurd h (by decide)) (fun h => absurd h (by decide))
  | packb m =>
    exact hs.next_stage (State.pastClass_of_phase (hphase _ rfl) (by decide)) (.refl s) phConv rfl (by decide)
      (fun _ => packBytes_flushBitsZero _ _) (fun h => absurd h (by decide))
  | conv m =>
    have hflush : FlushBitsZero s.pkt := hs.packet (.inl (hphase _ rfl))
    exact hs.next_stage (State.pastClass_of_phase (hphase _ rfl) (by decide)) (.refl s) phIlv rfl (by decide)
      (fun _ => hflush) (fun _ => convolve_shiftedOut hflush)
  | ilv m =>
    exact hs.next_stage (State.pastClass_of_phase (hphase _ rfl) (by decide)) (.refl s) phMerge rfl (by decide)
      (fun _ => hs.packet (.inr (.inl (hphase _ rfl)))) (fun _ => hs.registers (.inl (hphase _ rfl)))
  | merge m => exact hs.merge (hphase _ rfl)
  | start x => exact .start s
  | reset => exact .reset s
  | wrCallIn | wrLocIn | wrPwrIn | passive => exact hs.of_sameEncode (by simp [State.sameEncode])

/-- Settles O7: a step passes the turn, or runs an operation that keeps the invariant. -/
theorem stepKeepsInvariant : Obligations.StepKeepsInvariant := by
  intro s t hs h
  have hturn : s.endTurn.Inv := hs.of_sameEncode (by simp [State.sameEncode])
  obtain rfl | ⟨i, hexec, hphase⟩ := step_selects h
  · exact hturn
  · exact exec_keeps_inv hturn hphase hexec

end Sys2Proof.Machine
end

section
/-! What the host sees: `STATUS` under the invariant, and what a write to a register number does to the reads
(10_state.md R22, R36, 40_encode_sequence.md R135, R136). -/

namespace Sys2Proof.Machine

/-! ## STATUS -/

/-- Busy, done, in error or none of the three (10_state.md R33, R37). -/
theorem State.Inv.status_cases {s : State} (hs : s.Inv) :
    (s.busy = true ∧ s.status = 0x01#8) ∨
      (s.busy = false ∧ (s.status = 0x00#8 ∨ s.status = 0x02#8 ∨ s.status = 0x14#8)) := by
  obtain ⟨-, hdoneErr, hcodeErr, hcodeNone⟩ := hs.flags
  cases hbusy : s.busy with
  | true =>
    obtain ⟨hdone, herr, hcode⟩ := hs.flagsClear_of_busy (s.busy_eq_true_iff.mp hbusy)
    exact .inl ⟨rfl, by rw [State.status, hcode, herr, hdone, hbusy]; rfl⟩
  | false =>
    refine .inr ⟨rfl, ?_⟩
    cases hdone : s.done with
    | true =>
      have herr := hdoneErr hdone
      exact .inr (.inl (by rw [State.status, hcodeNone herr, herr, hdone, hbusy]; rfl))
    | false =>
      cases herr : s.err with
      | true => exact .inr (.inr (by rw [State.status, hcodeErr herr, herr, hdone, hbusy]; rfl))
      | false => exact .inl (by rw [State.status, hcodeNone herr, herr, hdone, hbusy]; rfl)

/-- Settles O49: the exclusive flags leave four bytes, and only the busy one is 0x01. -/
theorem statusValues : Obligations.StatusValues := by
  intro s hs
  rw [← s.busy_eq_true_iff]
  rcases hs.status_cases with ⟨hbusy, h⟩ | ⟨hbusy, h | h | h⟩ <;> rw [h, hbusy] <;> decide

/-! ## Writes by register number -/

theorem write_callIn {a : RegNum} (h : a.toNat ≤ 0x00B) (v : Byte) (s : State) :
    exec (decodeAccess (accessWord true a v)) s = .next (s.writeCallIn a.toNat v) := by
  have hindex : (a.extractLsb' 0 4).toNat = a.toNat := by rw [BitVec.extractLsb'_toNat]; omega
  rw [decodeAccess_write, decodeWrite, if_pos h, ← hindex]
  rfl

theorem write_locIn {a : RegNum} (h : 0x010 ≤ a.toNat ∧ a.toNat ≤ 0x015) (v : Byte) (s : State) :
    exec (decodeAccess (accessWord true a v)) s = .next (s.writeLocIn (a.toNat - 0x010) v) := by
  have hindex : (a.extractLsb' 0 3).toNat = a.toNat - 0x010 := by rw [BitVec.extractLsb'_toNat]; omega
  rw [decodeAccess_write, decodeWrite, if_neg (by omega), if_pos h, ← hindex]
  rfl

theorem write_pwrIn {a : RegNum} (h : a.toNat = 0x018) (v : Byte) (s : State) :
    exec (decodeAccess (accessWord true a v)) s = .next (s.writePwrIn v) := by
  rw [decodeAccess_write, decodeWrite, if_neg (by omega), if_neg (by omega), if_pos h]
  rfl

/-- A write to a number that is no input register and not `CTRL` is ignored (40_encode_sequence.md R135). -/
theorem write_ignored {a : RegNum} (hcall : ¬ a.toNat ≤ 0x00B) (hloc : ¬ (0x010 ≤ a.toNat ∧ a.toNat ≤ 0x015))
    (hpwr : a.toNat ≠ 0x018) (hctrl : a.toNat ≠ 0x019) (v : Byte) (s : State) :
    exec (decodeAccess (accessWord true a v)) s = .next s := by
  rw [decodeAccess_write, decodeWrite, if_neg hcall, if_neg hloc, if_neg hpwr, if_neg hctrl]
  rfl

/-! ## Reads after an input write

The number written reads back the byte; at every other number the two reads unfold to the same register. -/

theorem memRead_writeCallIn {a : RegNum} (ha : a.toNat ≤ 0x00B) (b : RegNum) (v free : Byte) (s : State) :
    (s.writeCallIn a.toNat v).memRead free b = if a = b then v else s.memRead free b := by
  by_cases hb : b.toNat ≤ 0x00B
  · simp only [State.memRead, if_pos hb, State.writeCallIn_callIn, Vector.getElem?_setIfInBounds, BitVec.toNat_inj]
    split
    · simp [show a.toNat < 12 by omega]
    · rfl
  · have hab : a ≠ b := by rintro rfl; exact hb ha
    simp only [State.memRead, if_neg hb, if_neg hab]
    rfl

theorem memRead_writeLocIn {a : RegNum} (ha : 0x010 ≤ a.toNat ∧ a.toNat ≤ 0x015) (b : RegNum) (v free : Byte)
    (s : State) :
    (s.writeLocIn (a.toNat - 0x010) v).memRead free b = if a = b then v else s.memRead free b := by
  by_cases hb : 0x010 ≤ b.toNat ∧ b.toNat ≤ 0x015
  · have hindex : a.toNat - 0x010 = b.toNat - 0x010 ↔ a = b := by rw [← BitVec.toNat_inj]; omega
    simp only [State.memRead, if_neg (show ¬ b.toNat ≤ 0x00B by omega), if_pos hb, State.writeLocIn_locIn,
      Vector.getElem?_setIfInBounds, hindex]
    split
    · simp [show a.toNat - 0x010 < 6 by omega]
    · rfl
  · have hab : a ≠ b := by rintro rfl; exact hb ha
    simp only [State.memRead, if_neg hb, if_neg hab]
    rfl

theorem memRead_writePwrIn {a : RegNum} (ha : a.toNat = 0x018) (b : RegNum) (v free : Byte) (s : State) :
    (s.writePwrIn v).memRead free b = if a = b then v else s.memRead free b := by
  by_cases hb : b.toNat = 0x018
  · have hab : a = b := BitVec.eq_of_toNat_eq (ha.trans hb.symm)
    simp [State.memRead, hb, hab]
  · have hab : a ≠ b := by rintro rfl; exact hb ha
    simp only [State.memRead, if_neg hb, if_neg hab]
    rfl

/-- Settles O43: the four kinds of register number a write can name. -/
theorem readAfterWrite : Obligations.ReadAfterWrite := by
  intro a b v free s hctrl
  by_cases hcall : a.toNat ≤ 0x00B
  · refine ⟨_, write_callIn hcall v s, ?_⟩
    rw [memRead_writeCallIn hcall]
    simp [hcall]
  by_cases hloc : 0x010 ≤ a.toNat ∧ a.toNat ≤ 0x015
  · refine ⟨_, write_locIn hloc v s, ?_⟩
    rw [memRead_writeLocIn hloc]
    simp [hloc]
  by_cases hpwr : a.toNat = 0x018
  · refine ⟨_, write_pwrIn hpwr v s, ?_⟩
    rw [memRead_writePwrIn hpwr]
    simp [hpwr]
  · refine ⟨s, write_ignored hcall hloc hpwr hctrl v s, ?_⟩
    simp only [hcall, hloc, hpwr, or_self, and_false, if_false]

end Sys2Proof.Machine
end

section
/-! The inventory of state, register by register: which operations may change it (10_state.md R21). -/

namespace Sys2Proof.Machine

/-- Settles O51: by its field lemmas each effect other than RESET leaves every register alone that the inventory does
not let its operation write. -/
theorem registersWrittenOnlyBy : Obligations.RegistersWrittenOnlyBy := by
  intro i s t h hreset
  cases exec_effect h with
  | reset => exact absurd rfl hreset
  | field _ hi n x y => unfold Instr.IsField at hi; simp [hi]
  | norm | classBracketed | classUnclosed | classPlain | hash | packb | conv | ilv | merge => simp
  | wrCallIn | wrLocIn | wrPwrIn | start => simp
  | passive => simp

end Sys2Proof.Machine
end

section
/-! What lies outside the sequencer: reserved register numbers (20_memory.md R75), and the host's side of the state,
which the sequencer neither reads nor writes (20_memory.md R72, 70_reset_and_hazards.md R337). -/

namespace Sys2Proof.Machine

/-! ## Reserved register numbers -/

/-- A read of a number that no register has returns 0x00 (40_encode_sequence.md R136). -/
theorem read_reserved {a : RegNum} (hcall : ¬ a.toNat ≤ 0x00B) (hloc : ¬ (0x010 ≤ a.toNat ∧ a.toNat ≤ 0x015))
    (hpwr : a.toNat ≠ 0x018) (hctrl : a.toNat ≠ 0x019) (hstatus : a.toNat ≠ 0x01A)
    (hsym : ¬ (0x100 ≤ a.toNat ∧ a.toNat ≤ 0x1A1)) (x : Byte) (s : State) :
    exec (decodeAccess (accessWord false a x)) s = .next (s.returnByte 0x00#8) := by
  rw [decodeAccess_read, decodeRead, if_neg hcall, if_neg hloc, if_neg hpwr, if_neg hctrl, if_neg hstatus, if_neg hsym]
  rfl

/-- Settles O48: the four reserved ranges avoid every register the map names. -/
theorem reservedNumbersInert : Obligations.ReservedNumbersInert := by
  intro a v s hreserved
  have hcall : ¬ a.toNat ≤ 0x00B := by omega
  have hloc : ¬ (0x010 ≤ a.toNat ∧ a.toNat ≤ 0x015) := by omega
  have hpwr : a.toNat ≠ 0x018 := by omega
  have hctrl : a.toNat ≠ 0x019 := by omega
  exact ⟨write_ignored hcall hloc hpwr hctrl v s,
    read_reserved hcall hloc hpwr hctrl (by omega) (by omega) v s⟩

/-! ## The host's side of the state -/

/-- The block of `s` with the host's side of `u`: its input registers, its turns to come and the byte it has read. -/
def State.withHostSide (s u : State) : State :=
  { s with callIn := u.callIn, locIn := u.locIn, pwrIn := u.pwrIn, agenda := u.agenda, rdata := u.rdata }

theorem State.withHostSide_self (s : State) : s.withHostSide s = s := rfl

@[simp] theorem State.withHostSide_call (s u : State) : (s.withHostSide u).call = s.call := rfl
@[simp] theorem State.withHostSide_sBits (s u : State) : (s.withHostSide u).sBits = s.sBits := rfl
@[simp] theorem State.withHostSide_dBits (s u : State) : (s.withHostSide u).dBits = s.dBits := rfl

theorem State.sameEncode_withHostSide (s u : State) : s.sameEncode (s.withHostSide u) := by
  simp [State.sameEncode, State.withHostSide]

/-- Two states that agree on the encode and on the count of free values differ in the host's side only. -/
theorem State.withHostSide_of_sameEncode {s u : State} (h : s.sameEncode u) (hfree : s.freeCount = u.freeCount) :
    s.withHostSide u = u := by
  obtain ⟨hcall, hloc, hpwr, hphase, hmtype, hdone, herr, hcode, hha, hhb, hhc, hhash, hn, hm, hpkt, hreg0, hreg1, hs,
    hd, hsym⟩ := h
  cases u
  simp only [State.withHostSide, State.mk.injEq, true_and]
  exact ⟨hcall, hloc, hpwr, hphase, hmtype, hdone, herr, hcode, hha, hhb, hhc, hhash, hn, hm, hpkt, hreg0, hreg1, hs,
    hd, hsym, hfree⟩

theorem State.takeIndex_withHostSide (s u : State) (o : Option Nat) :
    (s.withHostSide u).takeIndex o = ((s.takeIndex o).1, (s.takeIndex o).2.withHostSide u) := by
  cases o <;> rfl

/-! ## Sequencer operations -/

theorem classify_withHostSide {s t : State} (m : BitVec 3) (h : exec (.classify m) s = .next t) (u : State) :
    exec (.classify m) (s.withHostSide u) = .next (t.withHostSide u) := by
  simp only [exec, execClassify] at h
  split at h
  · next hopen =>
    split at h
    · next g hclose => cases h; simp only [exec, execClassify, State.withHostSide_call, hopen, hclose]; rfl
    · next hclose => cases h; simp only [exec, execClassify, State.withHostSide_call, hopen, hclose]; rfl
  · next hopen => cases h; simp only [exec, execClassify, State.withHostSide_call, hopen]; rfl

theorem hash_withHostSide {s t : State} (h : exec .hash s = .next t) (u : State) :
    exec .hash (s.withHostSide u) = .next (t.withHostSide u) := by
  simp only [exec, execHash] at h
  split at h
  · next g hclose => cases h; simp only [exec, execHash, State.withHostSide_call, hclose]; rfl
  · next hclose => cases h; simp only [exec, execHash, State.withHostSide_call, hclose]; rfl

/-- A sequencer operation does the same whatever stands on the host's side, and carries that side along unchanged. -/
theorem exec_withHostSide {i : Instr} {p : BitVec 4} (hi : i.phaseCode = some p) {s t : State}
    (h : exec i s = .next t) (u : State) : exec i (s.withHostSide u) = .next (t.withHostSide u) := by
  cases i with
  | classify m => exact classify_withHostSide m h u
  | hash => exact hash_withHostSide h u
  | fieldT2S1 | fieldT2S2 | fieldT2P =>
    cases h
    simp only [exec, execFieldT2S1, execFieldT2S2, execFieldT2P, State.takeIndex_withHostSide]
    rfl
  | ilv =>
    cases h
    simp only [exec, execIlv, State.withHostSide_sBits, State.withHostSide_dBits]
    -- else `rfl` would evaluate the loop over 255 indices
    generalize interleave s.sBits s.dBits = d
    rfl
  | norm | fieldT1 | fieldT3 | packb | conv | merge => cases h; rfl
  | _ => cases hi

/-! ## Sequencer turns -/

/-- The turn at hand is the sequencer's: a listed one, or that of an empty agenda (log 1). -/
def State.AtSequencer (s : State) : Prop := s.agenda = [] ∨ s.agenda.head? = some .seq

theorem State.AtSequencer.fetch {s : State} (hs : s.AtSequencer) : s.fetch = s.sequencerWord := by
  rcases hs with h | h
  · simp only [State.fetch, h]
  · obtain ⟨rest, h⟩ := List.head?_eq_some_iff.mp h
    simp only [State.fetch, h]

theorem sequencerWord_eq_some {s : State} {w : OpWord} (h : s.sequencerWord = some w) : w = .select s.opsel := by
  simp only [State.sequencerWord] at h
  split at h <;> cases h
  rfl

/-- A sequencer turn does the same whatever stands on the host's side, and of that side it ends the turn only. -/
theorem step_withHostSide {s t u : State} (hs : s.AtSequencer) (hu : u.AtSequencer) (h : step s = .next t) :
    step (s.withHostSide u) = .next (t.withHostSide u.endTurn) := by
  have hturn : (s.withHostSide u).endTurn = s.endTurn.withHostSide u.endTurn := rfl
  have hfetch : (s.withHostSide u).fetch = s.fetch := by
    have hboth : (s.withHostSide u).AtSequencer := hu
    rw [hboth.fetch, hs.fetch]
    rfl
  obtain ⟨hnone, rfl⟩ | ⟨w, i, hw, hi, hexec⟩ := step_cases h
  · simp only [step, hfetch, hnone, hturn]
  · obtain rfl := sequencerWord_eq_some (hs.fetch.symm.trans hw)
    simp only [step, hfetch, hw, hi, hturn]
    exact exec_withHostSide (decodeSelect_phaseCode hi) hexec u.endTurn

/-- A sequencer turn, taken with the host's side it already has, is seen to leave that side's registers alone. -/
theorem step_keeps_inputs {s t : State} (hs : s.AtSequencer) (h : step s = .next t) :
    t.callIn = s.callIn ∧ t.locIn = s.locIn ∧ t.pwrIn = s.pwrIn := by
  have hstep := step_withHostSide hs hs h
  rw [State.withHostSide_self, h] at hstep
  rw [Host.Outcome.next.inj hstep]
  exact ⟨rfl, rfl, rfl⟩

/-- Settles O55: the second state is the first one with another host's side, so its step is the first one's. -/
theorem sequencerReadsOnlyContext : Obligations.SequencerReadsOnlyContext := by
  intro s s' t hsame hfree hs hs' h
  obtain ⟨hcall, hloc, hpwr⟩ := step_keeps_inputs hs h
  have hstep : step s' = .next (t.withHostSide s'.endTurn) := by
    rw [← step_withHostSide hs hs' h, State.withHostSide_of_sameEncode hsame hfree]
  exact ⟨hcall, hloc, hpwr, _, hstep, t.sameEncode_withHostSide _⟩

end Sys2Proof.Machine
end

section
/-! The sequencer's turn under the invariant: `PHASE` and `MTYPE` go together so that a select word always decodes
(30_encoding.md R112, 40_encode_sequence.md R132). -/

namespace Sys2Proof.Machine

/-- The five types of a message (10_state.md R32). -/
theorem mtype_cases {m : BitVec 3} (hlow : 1 ≤ m.toNat) (hhigh : m.toNat ≤ 5) :
    m = mtT1 ∨ m = mtT2S1 ∨ m = mtT2S2 ∨ m = mtT2P ∨ m = mtT3 := by
  revert m; decide

/-- While busy, legal `PHASE` and `MTYPE` make a word of the table: with no type NORM and CLASS, with T3 HASH, and every
later phase with each of the five types. -/
theorem State.selectLegal.opsel_decodes {s : State} (h : s.selectLegal) (hbusy : s.phase ≠ phIdle) :
    ∃ i, decodeSelect s.opsel = .ok i := by
  rw [State.opsel]
  rcases h with ⟨hidle, -⟩ | ⟨hphase, hm⟩ | ⟨hphase, hm⟩ | ⟨hphase, hlow, hhigh⟩
  · exact absurd hidle hbusy
  · rcases hphase with hp | hp <;> rw [hp, hm] <;> exact ⟨_, rfl⟩
  · rw [hphase, hm]; exact ⟨_, rfl⟩
  · rcases hphase with hp | hp | hp | hp | hp <;> rw [hp] <;>
      rcases mtype_cases hlow hhigh with hm | hm | hm | hm | hm <;> rw [hm] <;> exact ⟨_, rfl⟩

/-- Every word that can be at hand under the invariant decodes; an access word and the reset input always do. -/
theorem State.Inv.fetch_decodes {s : State} (hs : s.Inv) {w : OpWord} (hw : s.fetch = some w) :
    ∃ i, decodeWord w = .ok i := by
  rcases fetch_cases hw with ⟨rfl, hbusy, -⟩ | ⟨v, rfl, -⟩ | ⟨rfl, -⟩
  · exact hs.select.opsel_decodes hbusy
  · exact ⟨_, rfl⟩
  · exact ⟨_, rfl⟩

/-- Settles O8: a turn without a word passes, and the word of any other decodes to an operation, which completes. -/
theorem invariantNeverStops : Obligations.InvariantNeverStops := by
  intro s hs
  cases hw : s.fetch with
  | none => exact ⟨s.endTurn, by simp only [step, hw]⟩
  | some w =>
    obtain ⟨i, hi⟩ := hs.fetch_decodes hw
    obtain ⟨t, ht⟩ := exec_isNext i s.endTurn
    exact ⟨t, by simp only [step, hw, hi, ht]⟩

end Sys2Proof.Machine
end

section
/-! The parts of `M`: above bit 7 the class's own number, in the low seven bits the power with the class's marker
(30_encoding.md R97). -/

namespace Sys2Proof.Machine

/-! ## `M` as a field of fifteen bits and one of seven -/

theorem State.writeFields_mReg_mod (s : State) (n m : Int) :
    ((s.writeFields n m).mReg.toNat : Int) % 128 = m % 128 := by
  rw [State.writeFields_mReg_toNat]; omega

/-- A number of fifteen bits over seven low bits is not reduced. -/
theorem State.writeFields_mReg_div (s : State) (n : Int) {m c : Int} (hdiv : m / 128 = c) (hlow : 0 ≤ c)
    (hhigh : c < 32768) : (((s.writeFields n m).mReg.toNat / 128 : Nat) : Int) = c := by
  have := s.writeFields_mReg_toNat n m
  omega

/-! ## What a normalized identity bounds -/

theorem pwrTable_bounds : ∀ p ∈ pwrTable, -30 ≤ p ∧ p ≤ 60 := by decide

theorem isUpper_byteInt {c : Byte} (h : isUpper c = true) (hhigh : c.toNat ≤ 0x52) :
    65 ≤ byteInt c ∧ byteInt c ≤ 82 := by
  simp only [isUpper, decide_eq_true_eq] at h
  simp only [byteInt]
  omega

theorem isDigit_byteInt {c : Byte} (h : isDigit c = true) : 48 ≤ byteInt c ∧ byteInt c ≤ 57 := by
  simp only [isDigit, decide_eq_true_eq] at h
  simp only [byteInt]
  omega

/-- The integer of the first four characters of a locator (43_packer.md R220). -/
def locatorCode (loc : Vector Byte 6) : Int :=
  (179 - 10 * (byteInt loc[0] - 65) - (byteInt loc[2] - 48)) * 180 + 10 * (byteInt loc[1] - 65) + (byteInt loc[3] - 48)

/-- A letter `A..R` and a digit give 0..179 for each of the two coordinates (43_packer.md R221). -/
theorem locatorCode_bounds {loc : Vector Byte 6} (h : isNormalLoc loc = true) :
    0 ≤ locatorCode loc ∧ locatorCode loc ≤ 32399 := by
  simp only [isNormalLoc, Bool.and_eq_true, decide_eq_true_eq] at h
  obtain ⟨⟨⟨⟨⟨⟨hu0, hr0⟩, hu1⟩, hr1⟩, hd2⟩, hd3⟩, -⟩ := h
  have h0 := isUpper_byteInt hu0 hr0
  have h1 := isUpper_byteInt hu1 hr1
  have h2 := isDigit_byteInt hd2
  have h3 := isDigit_byteInt hd3
  simp only [locatorCode]
  omega

/-! ## The integer of each FIELD operation -/

theorem t1M_eq (loc : Vector Byte 6) (pwr : Int) : t1M loc pwr = locatorCode loc * 128 + (pwr + 64) := by
  simp only [t1M, locatorCode]; ring

theorem t3M_eq (hash15 : BitVec 15) (pwr : Int) : t3M hash15 pwr = (hash15.toNat : Int) * 128 + (63 - pwr) := by
  simp only [t3M]; ring

theorem t2s1M_mod (call : Vector Byte 12) (sp : Nat) (pwr : Int) : t2s1M call sp pwr % 128 = (pwr + 66) % 128 := by
  simp only [t2s1M]; omega

theorem t2s2M_mod (call : Vector Byte 12) (sp : Nat) (pwr : Int) : t2s2M call sp pwr % 128 = (pwr + 66) % 128 := by
  simp only [t2s2M]; omega

/-- The marker says whether the fold was reduced (43_packer.md R229). -/
theorem t2pM_mod (call : Vector Byte 12) (sp : Nat) (pwr : Int) :
    t2pM call sp pwr % 128 = (pwr + 65) % 128 ∨ t2pM call sp pwr % 128 = (pwr + 66) % 128 := by
  simp only [t2pM]
  split
  · right; omega
  · left; omega

/-! ## The FIELD operations -/

theorem exec_fieldT1 (s : State) : exec .fieldT1 s =
    .next ((s.writeFields (call28 (pad6 (firstSix s.call))) (t1M s.loc s.pwr.toInt)).goto phPackb) := rfl

theorem exec_fieldT3 (s : State) : exec .fieldT3 s =
    .next ((s.writeFields (call28 (rotateLoc s.loc)) (t3M s.hash15 s.pwr.toInt)).goto phPackb) := rfl

section
variable {s : State} {sp : Nat} (hslash : isFirstSlash s.call sp)
include hslash

theorem exec_fieldT2S1 : exec .fieldT2S1 s =
    .next ((s.writeFields (call28 (baseSuffix s.call sp)) (t2s1M s.call sp s.pwr.toInt)).goto phPackb) := by
  simp only [exec, execFieldT2S1, (slashIndex_eq_some_iff _ _).mpr hslash, State.takeIndex_some]

theorem exec_fieldT2S2 : exec .fieldT2S2 s =
    .next ((s.writeFields (call28 (baseSuffix s.call sp)) (t2s2M s.call sp s.pwr.toInt)).goto phPackb) := by
  simp only [exec, execFieldT2S2, (slashIndex_eq_some_iff _ _).mpr hslash, State.takeIndex_some]

theorem exec_fieldT2P : exec .fieldT2P s =
    .next ((s.writeFields (call28 (basePrefix s.call sp)) (t2pM s.call sp s.pwr.toInt)).goto phPackb) := by
  simp only [exec, execFieldT2P, (slashIndex_eq_some_iff _ _).mpr hslash, State.takeIndex_some]

end

/-- Settles O29: a legal power and its marker stay in 0..127, so the low seven bits are the sum itself. -/
theorem markerInLowBits : Obligations.MarkerInLowBits := by
  rintro s ⟨-, -, hpwr⟩
  obtain ⟨hlow, hhigh⟩ := pwrTable_bounds _ hpwr
  refine ⟨fun t h => ?_, fun t sp hslash h => ?_, fun t sp hslash h => ?_, fun t sp hslash h => ?_, fun t h => ?_⟩
  · cases (exec_fieldT1 s).symm.trans h
    rw [State.goto_mReg, State.writeFields_mReg_mod, t1M_eq]
    omega
  · cases (exec_fieldT2S1 hslash).symm.trans h
    rw [State.goto_mReg, State.writeFields_mReg_mod, t2s1M_mod]
    omega
  · cases (exec_fieldT2S2 hslash).symm.trans h
    rw [State.goto_mReg, State.writeFields_mReg_mod, t2s2M_mod]
    omega
  · cases (exec_fieldT2P hslash).symm.trans h
    rw [State.goto_mReg, State.writeFields_mReg_mod]
    have := t2pM_mod s.call sp s.pwr.toInt
    omega
  · cases (exec_fieldT3 s).symm.trans h
    have hhash : (s.hash15.toNat : Int) < 32768 := by exact_mod_cast s.hash15.isLt
    rw [State.goto_mReg, State.writeFields_mReg_mod, t3M_eq]
    refine ⟨by omega, Int.ofNat_inj.mp ?_⟩
    exact s.writeFields_mReg_div _ (by omega) (by omega) hhash

/-- Settles O30: the code is below 32400, within the fifteen bits above the power. -/
theorem locatorCodeNeverWraps : Obligations.LocatorCodeNeverWraps := by
  rintro s ⟨-, hloc, hpwr⟩
  obtain ⟨hplow, hphigh⟩ := pwrTable_bounds _ hpwr
  obtain ⟨hlow, hhigh⟩ := locatorCode_bounds hloc
  have hdiv : t1M s.loc s.pwr.toInt / 128 = locatorCode s.loc := by rw [t1M_eq]; omega
  have hcode := s.writeFields_mReg_div (call28 (pad6 (firstSix s.call))) hdiv hlow (by omega)
  refine ⟨_, exec_fieldT1 s, hcode, ?_, rfl⟩
  rw [State.goto_mReg]
  omega

end Sys2Proof.Machine
end

section
/-! The packet as a stream of bits (30_encoding.md R96, 20_memory.md R61). -/

namespace Sys2Proof.Machine

/-- The bits of a message: `N` from its top bit, `M` from its top bit, then zeros (30_encoding.md R96). -/
def messageBit (n : BitVec 28) (m : BitVec 22) (k : Nat) : Bool :=
  if k < 28 then n.getLsbD (27 - k) else if k < 50 then m.getLsbD (49 - k) else false

theorem messageBit_of_lt {k : Nat} (h : k < 28) (n : BitVec 28) (m : BitVec 22) :
    messageBit n m k = n.getLsbD (27 - k) := if_pos h

theorem messageBit_of_mem {k : Nat} (h : 28 ≤ k ∧ k < 50) (n : BitVec 28) (m : BitVec 22) :
    messageBit n m k = m.getLsbD (49 - k) := by
  rw [messageBit, if_neg (by omega), if_pos h.2]

theorem messageBit_of_ge {k : Nat} (h : 50 ≤ k) (n : BitVec 28) (m : BitVec 22) : messageBit n m k = false := by
  rw [messageBit, if_neg (by omega), if_neg (by omega)]

/-! ## The four kinds of byte (43_packer.md R240) -/

section
variable (n : BitVec 28) (m : BitVec 22) {r : Nat} (hr : r < 8)
include hr

/-- A byte of `N` alone. -/
theorem nByte_bit {q lo : Nat} (hlo : lo + 8 * q = 20) :
    (n.extractLsb' lo 8).getLsbD (7 - r) = messageBit n m (8 * q + r) := by
  rw [messageBit_of_lt (by omega), BitVec.getLsbD_extractLsb', show lo + (7 - r) = 27 - (8 * q + r) by omega]
  simp [show 7 - r < 8 by omega]

/-- A byte of `M` alone. -/
theorem mByte_bit {q lo : Nat} (hlo : lo + 8 * q = 42) (hq : 4 ≤ q) :
    (m.extractLsb' lo 8).getLsbD (7 - r) = messageBit n m (8 * q + r) := by
  rw [messageBit_of_mem (by omega), BitVec.getLsbD_extractLsb', show lo + (7 - r) = 49 - (8 * q + r) by omega]
  simp [show 7 - r < 8 by omega]

/-- The byte in which `N` ends and `M` begins. -/
theorem sharedByte_bit :
    (n.extractLsb' 0 4 ++ m.extractLsb' 18 4).getLsbD (7 - r) = messageBit n m (8 * 3 + r) := by
  rw [BitVec.getLsbD_append]
  by_cases hsplit : r < 4
  · rw [messageBit_of_lt (by omega), if_neg (by omega)]
    simp [show 7 - r - 4 = 27 - (24 + r) by omega, show 27 - (24 + r) < 4 by omega]
  · rw [messageBit_of_mem (by omega), if_pos (by omega)]
    simp [show 7 - r < 4 by omega, show 18 + (7 - r) = 49 - (24 + r) by omega]

/-- The byte in which `M` ends and the zeros begin. -/
theorem lastByte_bit : (m.extractLsb' 0 2 ++ 0#6).getLsbD (7 - r) = messageBit n m (8 * 6 + r) := by
  rw [BitVec.getLsbD_append]
  by_cases hsplit : r < 2
  · rw [messageBit_of_mem (by omega), if_neg (by omega)]
    simp [show 7 - r - 6 = 49 - (48 + r) by omega, show 49 ≤ 1 + (48 + r) by omega]
  · rw [messageBit_of_ge (by omega), if_pos (by omega)]
    simp

theorem zeroByte_bit {q : Nat} (hq : 7 ≤ q) : (0#8).getLsbD (7 - r) = messageBit n m (8 * q + r) := by
  rw [messageBit_of_ge (by omega)]
  simp

/-- Bit `r` of byte `q`, counted from the top, is bit `8 * q + r` of the message. -/
theorem packBytes_bit {q : Nat} (hq : q < 11) :
    (packBytes n m)[q]?.map (·.getLsbD (7 - r)) = some (messageBit n m (8 * q + r)) :=
  match q, hq with
  | 0, _ | 1, _ | 2, _ => congrArg some (nByte_bit n m hr rfl)
  | 3, _ => congrArg some (sharedByte_bit n m hr)
  | 4, _ | 5, _ => congrArg some (mByte_bit n m hr rfl (by decide))
  | 6, _ => congrArg some (lastByte_bit n m hr)
  | 7, _ | 8, _ | 9, _ | 10, _ => congrArg some (zeroByte_bit n m hr (by decide))

end

/-- Settles O32, byte by byte. -/
theorem packetBitStream : Obligations.PacketBitStream := by
  intro m s t h k hk
  cases h
  have hbit := packBytes_bit s.nReg s.mReg (show k % 8 < 8 by omega) (show k / 8 < 11 by omega)
  rwa [Nat.div_add_mod] at hbit

end Sys2Proof.Machine
end

section
/-! The pseudo-operations of the host: what CALLSIGN, LOCATOR and POWER leave in the input registers (30_encoding.md R119). -/

namespace Sys2Proof.Machine

/-! ## Runs -/

/-- A run in two parts. -/
theorem run_add {a b : Nat} {s t : State} (h : Sys2Proof.core.run a s = .next t) :
    Sys2Proof.core.run (a + b) s = Sys2Proof.core.run b t := by
  induction a generalizing s with
  | zero => cases h; rw [Nat.zero_add]
  | succ a ih =>
    rw [Nat.succ_add]
    simp only [Host.Core.run] at h ⊢
    split at h
    · next s' hstep => exact ih h
    · cases h
    · cases h

/-- A run over turns of one kind, where a step on the turn `f x` takes the part `b` of the state to `g b x`. -/
theorem run_map_turns {α β : Type} (place : β → List Turn → State) (f : α → Turn) (g : β → α → β) (xs : List α)
    (hstep : ∀ x ∈ xs, ∀ b rest, step (place b (f x :: rest)) = .next (place (g b x) rest)) (b : β)
    (rest : List Turn) :
    Sys2Proof.core.run xs.length (place b (xs.map f ++ rest)) = .next (place (xs.foldl g b) rest) := by
  induction xs generalizing b with
  | nil => rfl
  | cons x xs ih =>
    have hx : Sys2Proof.core.step (place b (f x :: (xs.map f ++ rest))) = .next (place (g b x) (xs.map f ++ rest)) :=
      hstep x List.mem_cons_self b _
    simp only [List.length_cons, List.map_cons, List.cons_append, Host.Core.run, hx]
    exact ih (fun y hy => hstep y (List.mem_cons_of_mem _ hy)) _

/-- Writing the slots below `m` in turn. -/
theorem foldl_setIfInBounds_getElem {α : Type} {n : Nat} (v : Vector α n) (f : Nat → α) (m : Nat) {k : Nat}
    (hk : k < n) : ((List.range m).foldl (fun v i => v.setIfInBounds i (f i)) v)[k] = if k < m then f k else v[k] := by
  induction m with
  | zero => rfl
  | succ m ih =>
    rw [List.range_succ, List.foldl_append, List.foldl_cons, List.foldl_nil, Vector.getElem_setIfInBounds, ih]
    by_cases hlast : m = k
    · simp [hlast]
    · simp [hlast, show k < m + 1 ↔ k < m by omega]

/-- Writing every slot in turn leaves nothing of what was there. -/
theorem foldl_setIfInBounds_range {α : Type} {n : Nat} (v : Vector α n) (f : Nat → α) :
    (List.range n).foldl (fun v i => v.setIfInBounds i (f i)) v = Vector.ofFn fun i => f i.val := by
  ext k hk
  rw [foldl_setIfInBounds_getElem v f n hk, if_pos hk, Vector.getElem_ofFn]

/-! ## Writes of the input registers -/

/-- The state with these input registers and these turns to come. -/
def State.withInputs (s : State) (c : Vector Byte 12) (l : Vector Byte 6) (p : Byte) (turns : List Turn) : State :=
  { s with callIn := c, locIn := l, pwrIn := p, agenda := turns }

theorem State.withInputs_self (s : State) : s.withInputs s.callIn s.locIn s.pwrIn s.agenda = s := rfl

/-- A write turn runs the operation of its word (30_encoding.md R106). -/
theorem step_wrTurn {s : State} {a : Nat} {v : Byte} {rest : List Turn} (h : s.agenda = wrTurn a v :: rest) :
    step s = exec (decodeAccess (accessWord true (BitVec.ofNat 9 a) v)) s.endTurn := by
  simp only [step, State.fetch, h, wrTurn, decodeWord]

section
variable (s : State) (c : Vector Byte 12) (l : Vector Byte 6) (p v : Byte) (rest : List Turn)

theorem step_write_callIn {i : Nat} (hi : i < 12) : step (s.withInputs c l p (wrTurn i v :: rest)) =
    .next (s.withInputs (c.setIfInBounds i v) l p rest) := by
  have hnum : (BitVec.ofNat 9 i).toNat = i := by rw [BitVec.toNat_ofNat]; omega
  rw [step_wrTurn rfl, write_callIn (by omega), hnum]
  rfl

theorem step_write_locIn {i : Nat} (hi : i < 6) : step (s.withInputs c l p (wrTurn (0x010 + i) v :: rest)) =
    .next (s.withInputs c (l.setIfInBounds i v) p rest) := by
  have hnum : (BitVec.ofNat 9 (0x010 + i)).toNat = 0x010 + i := by rw [BitVec.toNat_ofNat]; omega
  rw [step_wrTurn rfl, write_locIn (by omega), hnum, Nat.add_sub_cancel_left]
  rfl

theorem step_write_pwrIn : step (s.withInputs c l p (wrTurn 0x018 v :: rest)) = .next (s.withInputs c l v rest) := by
  rw [step_wrTurn rfl, write_pwrIn rfl]
  rfl

end

section
variable (s : State) (c : Vector Byte 12) (l : Vector Byte 6) (p : Byte) (text : List Byte) (rest : List Turn)

/-- CALLSIGN: twelve writes replace `CALL_IN` by the text, padded with 0x00 (30_encoding.md R119). -/
theorem run_callsignTurns : Sys2Proof.core.run 12 (s.withInputs c l p (callsignTurns text ++ rest)) =
    .next (s.withInputs (Vector.ofFn fun i => text.getD i.val 0#8) l p rest) := by
  rw [← foldl_setIfInBounds_range c (text.getD · 0#8)]
  exact run_map_turns (s.withInputs · l p) _ _ (List.range 12)
    (fun i hi c rest => step_write_callIn s c l p _ rest (List.mem_range.mp hi)) c rest

/-- LOCATOR: six writes replace `LOC_IN` by the text, padded with 0x00 (30_encoding.md R119). -/
theorem run_locatorTurns : Sys2Proof.core.run 6 (s.withInputs c l p (locatorTurns text ++ rest)) =
    .next (s.withInputs c (Vector.ofFn fun i => text.getD i.val 0#8) p rest) := by
  rw [← foldl_setIfInBounds_range l (text.getD · 0#8)]
  exact run_map_turns (s.withInputs c · p) _ _ (List.range 6)
    (fun i hi l rest => step_write_locIn s c l p _ rest (List.mem_range.mp hi)) l rest

/-- POWER (30_encoding.md R119). -/
theorem run_powerTurn (v : Int) : Sys2Proof.core.run 1 (s.withInputs c l p (powerTurn v :: rest)) =
    .next (s.withInputs c l (BitVec.ofInt 8 v) rest) := by
  have hstep : Sys2Proof.core.step (s.withInputs c l p (powerTurn v :: rest)) =
      .next (s.withInputs c l (BitVec.ofInt 8 v) rest) := step_write_pwrIn s c l p _ rest
  simp only [Host.Core.run, hstep]

end

/-- CALLSIGN, LOCATOR and POWER in a row replace the input registers and nothing else. -/
theorem run_identityTurns {s : State} {c l : List Byte} {p : Int} {rest : List Turn}
    (h : s.agenda = callsignTurns c ++ locatorTurns l ++ powerTurn p :: rest) :
    Sys2Proof.core.run (12 + (6 + 1)) s = .next (s.withInputs (Vector.ofFn fun i => c.getD i.val 0#8)
      (Vector.ofFn fun i => l.getD i.val 0#8) (BitVec.ofInt 8 p) rest) := by
  conv => lhs; rw [← s.withInputs_self, h, List.append_assoc]
  rw [run_add (run_callsignTurns ..), run_add (run_locatorTurns ..), run_powerTurn]

/-- Settles O59: the three pseudo-operations one after the other. -/
theorem identityWritesLand : Obligations.IdentityWritesLand := by
  intro s c l p hlow hhigh h
  refine ⟨_, run_identityTurns h, fun i => ?_, fun i => ?_, ?_, rfl, rfl⟩
  · simp [State.withInputs]
  · simp [State.withInputs]
  · exact BitVec.toInt_ofInt_eq_self (by decide) hlow (by omega)

end Sys2Proof.Machine
end

section
/-! START and the register map of writes: what a write of `CTRL` does, and with it what a write of any register number
does (40_encode_sequence.md R135, R137). -/

namespace Sys2Proof.Machine

/-! ## START -/

/-- START as it is accepted (40_encode_sequence.md R137). -/
def State.started (s : State) : State := State.goto { s.latchContext.clearFlags with mtype := mtNone } phNorm

theorem exec_start_of_idle {s : State} (hidle : s.phase = phIdle) (x : BitVec 7) :
    exec (.start x) s = .next s.started := by
  have hbusy := s.busy_eq_false_iff.mpr hidle
  simp only [exec, execStart, hbusy]
  rfl

theorem exec_start_of_busy {s : State} (hphase : s.phase ≠ phIdle) (x : BitVec 7) : exec (.start x) s = .next s := by
  have hbusy := s.busy_eq_true_iff.mpr hphase
  simp only [exec, execStart, hbusy, if_true]

/-- Settles O47: `started` is the state the statement writes out. -/
theorem startLatchesContext : Obligations.StartLatchesContext :=
  fun x _ => ⟨fun hidle => exec_start_of_idle hidle x, fun hbusy => exec_start_of_busy hbusy x⟩

/-! ## Writes of `CTRL` -/

section
variable {a : RegNum} (ha : a.toNat = 0x019) {v : Byte} (s : State)
include ha

theorem write_ctrl_start (hbit : v.getLsbD 0 = true) :
    exec (decodeAccess (accessWord true a v)) s = exec (.start (v.extractLsb' 1 7)) s := by
  rw [decodeAccess_write, decodeWrite, if_neg (by omega), if_neg (by omega), if_neg (by omega), if_pos ha, if_pos hbit]

/-- With bit 0 clear a write of `CTRL` does nothing (40_encode_sequence.md R135). -/
theorem write_ctrl_nop (hbit : ¬ v.getLsbD 0 = true) : exec (decodeAccess (accessWord true a v)) s = .next s := by
  rw [decodeAccess_write, decodeWrite, if_neg (by omega), if_neg (by omega), if_neg (by omega), if_pos ha, if_neg hbit]
  rfl

end

/-- Settles O41: the branches of the statement are the kinds of register number, and `CTRL` starts an encode only with
bit 0 set and only while idle. -/
theorem hostWritesFollowMap : Obligations.HostWritesFollowMap := by
  intro a v s
  by_cases hcall : a.toNat ≤ 0x00B
  · rw [if_pos hcall]
    exact write_callIn hcall v s
  by_cases hloc : 0x010 ≤ a.toNat ∧ a.toNat ≤ 0x015
  · rw [if_neg hcall, if_pos hloc]
    exact write_locIn hloc v s
  by_cases hpwr : a.toNat = 0x018
  · rw [if_neg hcall, if_neg hloc, if_pos hpwr]
    exact write_pwrIn hpwr v s
  rw [if_neg hcall, if_neg hloc, if_neg hpwr]
  by_cases hctrl : a.toNat = 0x019
  · by_cases hbit : v.getLsbD 0 = true
    · rw [write_ctrl_start hctrl s hbit]
      by_cases hidle : s.phase = phIdle
      · rw [if_pos ⟨hctrl, hbit, hidle⟩]
        exact exec_start_of_idle hidle _
      · rw [if_neg fun h => hidle h.2.2]
        exact exec_start_of_busy hidle _
    · rw [if_neg fun h => hbit h.2.1]
      exact write_ctrl_nop hctrl s hbit
  · rw [if_neg fun h => hctrl h.1]
    exact write_ignored hcall hloc hpwr hctrl v s

end Sys2Proof.Machine
end

section
/-! Every change of `PHASE` (40_encode_sequence.md R132): where the operation of a step comes from, and what each
operation does to `PHASE` and the flags. -/

namespace Sys2Proof.Machine

/-- RESET is the reset input's alone (30_encoding.md R107). -/
theorem decodeAccess_ne_reset (w : Hacc) : decodeAccess w ≠ .reset := by
  simp only [decodeAccess, decodeWrite, decodeRead]
  split_ifs <;> exact Instr.noConfusion

/-- The operation the select word stands for is one of the phase at hand (30_encoding.md R105). -/
theorem State.phaseCode_of_opsel {s : State} {i : Instr} (hi : decodeSelect s.opsel = .ok i) :
    i.phaseCode = some s.phase := by
  rw [decodeSelect_phaseCode hi, State.opsel, phaseField_append]

/-- The turn at hand that an operation is run for: the sequencer's in the operation's own phase, a host access of its
word, or reset. -/
def State.Selects (s : State) (i : Instr) : Prop :=
  i.phaseCode = some s.phase ∨ (∃ w, s.agenda.head? = some (.host w) ∧ decodeAccess w = i) ∨
    (s.agenda.head? = some .reset ∧ i = .reset)

/-- A step passes the turn, or runs the operation of the turn at hand. -/
theorem step_runs {s t : State} (h : step s = .next t) :
    t = s.endTurn ∨ ∃ i, s.Selects i ∧ exec i s.endTurn = .next t := by
  obtain ⟨-, ht⟩ | ⟨w, i, hw, hi, ht⟩ := step_cases h
  · exact .inl ht
  refine .inr ⟨i, ?_, ht⟩
  obtain ⟨rfl, -, -⟩ | ⟨v, rfl, hhead⟩ | ⟨rfl, hhead⟩ := fetch_cases hw
  · exact .inl (State.phaseCode_of_opsel hi)
  · exact .inr (.inl ⟨v, hhead, Except.ok.inj hi⟩)
  · exact .inr (.inr ⟨hhead, (Except.ok.inj hi).symm⟩)

theorem State.Selects.phase_eq {s : State} {i : Instr} (h : s.Selects i) {p : BitVec 4} (hp : i.phaseCode = some p) :
    s.phase = p := by
  obtain hcode | ⟨w, -, rfl⟩ | ⟨-, rfl⟩ := h
  · exact Option.some.inj (hcode.symm.trans hp)
  · rw [decodeAccess_phaseCode] at hp; cases hp
  · cases hp

theorem State.Selects.start {s : State} {x : BitVec 7} (h : s.Selects (.start x)) :
    ∃ w x, s.agenda.head? = some (.host w) ∧ decodeAccess w = .start x := by
  obtain hcode | ⟨w, hhead, hw⟩ | ⟨-, hreset⟩ := h
  · cases hcode
  · exact ⟨w, x, hhead, hw⟩
  · cases hreset

theorem State.Selects.reset {s : State} (h : s.Selects .reset) : s.agenda.head? = some .reset := by
  obtain hcode | ⟨w, -, hw⟩ | ⟨hhead, -⟩ := h
  · cases hcode
  · exact absurd hw (decodeAccess_ne_reset w)
  · exact hhead

/-- Settles O52: each effect that moves `PHASE` is one row of the relation; a sequencer operation's row begins at its
own phase, START's at IDLE. -/
theorem phaseTransitions : Obligations.PhaseTransitions := by
  intro s t _ h hmoved
  obtain rfl | ⟨i, hselects, hexec⟩ := step_runs h
  · exact absurd rfl hmoved
  cases exec_effect hexec with
  | start x hidle => exact .inl ⟨hidle, rfl, hselects.start, rfl, rfl, rfl, rfl, rfl, rfl, rfl⟩
  | norm => exact .inr (.inl ⟨hselects.phase_eq rfl, rfl⟩)
  | classPlain _ hopen =>
    exact .inr (.inr (.inl ⟨hselects.phase_eq rfl, rfl, messageClass_ne_mtT3 hopen⟩))
  | classBracketed _ g _ hclose =>
    exact .inr (.inr (.inr (.inl ⟨hselects.phase_eq rfl, rfl, rfl, g, (closeIndex_eq_some_iff _ _).mp hclose⟩)))
  | classUnclosed _ _ hclose =>
    exact .inr (.inr (.inr (.inr (.inl
      ⟨hselects.phase_eq rfl, rfl, rfl, (closeIndex_eq_none_iff _).mp hclose, rfl, rfl⟩))))
  | hash => simp [hselects.phase_eq rfl]
  | field _ hi => simp [hselects.phase_eq hi.phaseCode]
  | packb | conv | ilv => simp [hselects.phase_eq rfl]
  | merge => simp [hselects.phase_eq rfl]
  | reset => simp [hselects.reset, State.reset]
  | wrCallIn | wrLocIn | wrPwrIn | passive => exact absurd rfl hmoved

end Sys2Proof.Machine
end

section
/-! What the encode as a function leaves out and the registers go through: brackets are the same before and after NORM,
HASH15 is the short key's HASHLITTLE, and ILV writes over all of the old `D`. -/

namespace Sys2Proof.Machine

/-! ## Brackets before and after NORM (60_exceptions.md R302) -/

theorem normChar_eq_bracket_iff {mark : Byte} (hmark : mark = chLess ∨ mark = chGreater) (c : Byte) :
    normChar c = mark ↔ c = mark := by
  constructor
  · intro h
    rw [normChar] at h
    split at h
    · exact h
    · split at h
      · next halnum =>
        rw [h] at halnum
        rcases hmark with rfl | rfl <;> exact absurd halnum (by decide)
      · rcases hmark with rfl | rfl <;> exact absurd h (by decide)
  · rintro rfl
    rcases hmark with rfl | rfl <;> decide

theorem normCall_eq_map (raw : Vector Byte 12) : normCall raw = raw.map normChar := by
  ext i hi
  simp [normCall]

@[simp] theorem opensBracket_normCall (raw : Vector Byte 12) : opensBracket (normCall raw) = opensBracket raw := by
  rw [Bool.eq_iff_iff]
  simp [opensBracket, normCall_eq_map, normChar_eq_bracket_iff]

@[simp] theorem closeIndex_normCall (raw : Vector Byte 12) : closeIndex (normCall raw) = closeIndex raw := by
  have hpred : (· == chGreater) ∘ normChar = (· == chGreater) := by
    funext c
    rw [Bool.eq_iff_iff]
    simp [normChar_eq_bracket_iff]
  simp only [closeIndex, normCall_eq_map, Vector.toList_map, ← List.map_drop, List.findIdx?_map, hpred]

@[simp] theorem encodeSteps_normCall (raw : Vector Byte 12) : encodeSteps (normCall raw) = encodeSteps raw := by
  simp [encodeSteps]

/-! ## HASH -/

/-- A key of at most twelve bytes has no full block: HASHLITTLE is HASH's `HC` (42_hasher.md R194, R197). -/
theorem hashlittle_eq_hashRegs {key : List Byte} (h : key.length ≤ 12) :
    hashlittle key hashSeed = (hashRegs key).2.2 := by
  have hblocks : (key.length - 1) / 12 = 0 := by omega
  simp only [hashlittle, hblocks, hashBlocks, hashRegs]
  split <;> rfl

theorem hashKey_length_le (call : Vector Byte 12) (g : Nat) : (hashKey call g).length ≤ 12 := by
  simp only [hashKey, List.length_take, List.length_drop, Vector.length_toList]
  omega

theorem exec_hash {s : State} {g : Nat} (hclose : closeIndex s.call = some g) :
    exec .hash s = .next ((s.writeHash (hashRegs (hashKey s.call g))).goto phField) := by
  simp only [exec, execHash, hclose]

theorem hash15Of_eq_hashRegs (call : Vector Byte 12) (g : Nat) :
    hash15Of call g = (hashRegs (hashKey call g)).2.2.extractLsb' 0 15 := by
  rw [hash15Of, hashlittle_eq_hashRegs (hashKey_length_le call g)]

/-! ## ILV -/

/-- Two old contents of `D` that agree wherever no index to come is sent give the same result. -/
theorem ilvLoop_congr (src : Vector Bool 162) (js : List Nat) (i : Nat) {d d' : Vector Bool 162}
    (h : ∀ r (hr : r < 162), d[r] = d'[r] ∨ ∃ j ∈ js, rev8 j = r) : ilvLoop src js i d = ilvLoop src js i d' := by
  induction js generalizing i d d' with
  | nil =>
    ext r hr
    simpa [ilvLoop] using h r hr
  | cons j js ih =>
    have hrest : ∀ r (hr : r < 162), rev8 j ≠ r → d[r] = d'[r] ∨ ∃ j ∈ js, rev8 j = r := by
      intro r hr hj
      simpa [hj] using h r hr
    simp only [ilvLoop]
    split
    · refine ih (i + 1) fun r hr => ?_
      by_cases hj : rev8 j = r
      · simp [hj]
      · simpa [Vector.getElem_setIfInBounds, hj] using hrest r hr hj
    · next hout => exact ih i fun r hr => hrest r hr fun hj => hout (hj ▸ hr)

/-- Every position is the reversal of its own reversal (45_interleaver.md R280). -/
theorem rev8_covers : ∀ r < 162, rev8 r < 255 ∧ rev8 (rev8 r) = r := by decide +kernel

/-- ILV leaves nothing of the old `D` (45_interleaver.md R281). -/
theorem interleave_old (src old old' : Vector Bool 162) : interleave src old = interleave src old' :=
  ilvLoop_congr src (List.range 255) 0 fun r hr =>
    .inr ⟨rev8 r, List.mem_range.mpr (rev8_covers r hr).1, (rev8_covers r hr).2⟩

end Sys2Proof.Machine
end

section
/-! The encode as a conserved quantity: in every phase the registers already determine the symbols MERGE will publish,
or that CLASS will raise the error, and every sequencer operation keeps that result and uses up one of the steps that
remain (40_encode_sequence.md R130, R133). -/

namespace Sys2Proof.Machine

/-- The 162 symbols. -/
abbrev Symbols := Vector (BitVec 2) 162

/-! ## What the registers determine -/

/-- CONV to MERGE as a function of the packet. -/
def symbolsOfPacket (pkt : Vector Byte 11) : Symbols :=
  mergeSymbols (interleave (convolve pkt).1 (Vector.replicate 162 false))

theorem symbolsOfFields_eq (n m : Int) :
    symbolsOfFields n m = symbolsOfPacket (packBytes (BitVec.ofInt 28 n) (BitVec.ofInt 22 m)) := rfl

/-- The symbols the encode will publish, or has published, from this state; `none` for the error. A Type-3 message has
its hash in a register by the time of FIELD, any other is still a function of the context. -/
def State.result (s : State) : Option Symbols :=
  match s.phase.toNat with
  | 0 => if s.done then some s.sym else none
  | 1 => enc s.call s.loc s.pwr
  | 2 | 3 => encNormal s.call s.loc s.pwr.toInt
  | 4 =>
    if s.mtype = mtT3 then some (symbolsOfFields (call28 (rotateLoc s.loc)) (t3M s.hash15 s.pwr.toInt))
    else encNormal s.call s.loc s.pwr.toInt
  | 5 => some (symbolsOfPacket (packBytes s.nReg s.mReg))
  | 6 => some (symbolsOfPacket s.pkt)
  | 7 => some (mergeSymbols (interleave s.sBits (Vector.replicate 162 false)))
  | _ => some (mergeSymbols s.dBits)

/-- The sequencer's steps to come. -/
def State.stepsLeft (s : State) : Nat :=
  match s.phase.toNat with
  | 0 => 0
  | 1 => encodeSteps s.call
  | 2 => encodeSteps s.call - 1
  | 3 => 6
  | 4 => 5
  | 5 => 4
  | 6 => 3
  | 7 => 2
  | _ => 1

section
variable {s : State}

theorem State.result_idle (h : s.phase = phIdle) : s.result = if s.done then some s.sym else none := by
  rw [State.result, h]; rfl

theorem State.result_norm (h : s.phase = phNorm) : s.result = enc s.call s.loc s.pwr := by
  rw [State.result, h]; rfl

theorem State.result_class (h : s.phase = phClass) : s.result = encNormal s.call s.loc s.pwr.toInt := by
  rw [State.result, h]; rfl

theorem State.result_hash (h : s.phase = phHash) : s.result = encNormal s.call s.loc s.pwr.toInt := by
  rw [State.result, h]; rfl

theorem State.result_field_t3 (h : s.phase = phField) (ht3 : s.mtype = mtT3) :
    s.result = some (symbolsOfFields (call28 (rotateLoc s.loc)) (t3M s.hash15 s.pwr.toInt)) := by
  rw [State.result, h, ht3]; rfl

theorem State.result_field (h : s.phase = phField) (ht3 : s.mtype ≠ mtT3) :
    s.result = encNormal s.call s.loc s.pwr.toInt := by
  rw [State.result, h]; exact if_neg ht3

theorem State.result_packb (h : s.phase = phPackb) : s.result = some (symbolsOfPacket (packBytes s.nReg s.mReg)) := by
  rw [State.result, h]; rfl

theorem State.result_conv (h : s.phase = phConv) : s.result = some (symbolsOfPacket s.pkt) := by
  rw [State.result, h]; rfl

theorem State.result_ilv (h : s.phase = phIlv) :
    s.result = some (mergeSymbols (interleave s.sBits (Vector.replicate 162 false))) := by
  rw [State.result, h]; rfl

theorem State.result_merge (h : s.phase = phMerge) : s.result = some (mergeSymbols s.dBits) := by
  rw [State.result, h]; rfl

end

/-- Both look only at the registers of the encode. -/
theorem State.result_of_sameEncode {s t : State} (h : s.sameEncode t) :
    t.result = s.result ∧ t.stepsLeft = s.stepsLeft := by
  obtain ⟨hcall, hloc, hpwr, hphase, hmtype, hdone, -, -, -, -, -, hhash, hn, hm, hpkt, -, -, hs, hd, hsym⟩ := h
  simp only [State.result, State.stepsLeft, hcall, hloc, hpwr, hphase, hmtype, hdone, hhash, hn, hm, hpkt, hs, hd, hsym,
    and_self]

/-! ## NORM and CLASS -/

/-- NORM carries out the first stage of ENC. -/
theorem enc_eq_encNormal (c : Vector Byte 12) (l : Vector Byte 6) (p : Byte) :
    enc c l p = encNormal (normCall c) (normLoc l) (BitVec.ofInt 8 (normPwr p.toInt)).toInt := by
  rw [enc, toInt_ofInt_of_mem_pwrTable _ (normPwr_mem _)]

section
variable {call : Vector Byte 12}

theorem encNormal_unclosed (hopen : opensBracket call = true) (hclose : closeIndex call = none) (loc : Vector Byte 6)
    (pwr : Int) : encNormal call loc pwr = none := by
  simp only [encNormal, hopen, hclose, if_true]

theorem encNormal_bracketed {g : Nat} (hopen : opensBracket call = true) (hclose : closeIndex call = some g)
    (loc : Vector Byte 6) (pwr : Int) :
    encNormal call loc pwr = some (symbolsOfFields (call28 (rotateLoc loc)) (t3M (hash15Of call g) pwr)) := by
  simp only [encNormal, hopen, hclose, if_true]

theorem encodeSteps_unclosed (hopen : opensBracket call = true) (hclose : closeIndex call = none) :
    encodeSteps call = 2 := by
  simp [encodeSteps, hopen, hclose]

theorem encodeSteps_bracketed {g : Nat} (hopen : opensBracket call = true) (hclose : closeIndex call = some g) :
    encodeSteps call = 8 := by
  simp [encodeSteps, hopen, hclose]

theorem encodeSteps_plain (hopen : opensBracket call = false) : encodeSteps call = 7 := by
  simp [encodeSteps, hopen]

end

/-- The error takes the fewest steps, Type 3 the most (40_encode_sequence.md R133). -/
theorem encodeSteps_bounds (c : Vector Byte 12) : 2 ≤ encodeSteps c ∧ encodeSteps c ≤ 8 := by
  simp only [encodeSteps]
  split
  · split <;> decide
  · decide

/-! ## FIELD -/

/-- A message without brackets is packed as its class says (43_packer.md R214): no slash, or the text behind the first
one. -/
theorem messageClass_plain_cases {call : Vector Byte 12} (hopen : opensBracket call = false) (loc : Vector Byte 6)
    (pwr : Int) :
    (messageClass call = mtT1 ∧
      encNormal call loc pwr = some (symbolsOfFields (call28 (pad6 (firstSix call))) (t1M loc pwr))) ∨
    ∃ sp, isFirstSlash call sp ∧
      ((messageClass call = mtT2S1 ∧
        encNormal call loc pwr = some (symbolsOfFields (call28 (baseSuffix call sp)) (t2s1M call sp pwr))) ∨
      (messageClass call = mtT2S2 ∧
        encNormal call loc pwr = some (symbolsOfFields (call28 (baseSuffix call sp)) (t2s2M call sp pwr))) ∨
      (messageClass call = mtT2P ∧
        encNormal call loc pwr = some (symbolsOfFields (call28 (basePrefix call sp)) (t2pM call sp pwr)))) := by
  cases hslash : slashIndex call with
  | none => exact .inl (by simp [messageClass, encNormal, hopen, hslash])
  | some sp =>
    refine .inr ⟨sp, (slashIndex_eq_some_iff _ _).mp hslash, ?_⟩
    simp only [messageClass, encNormal, hopen, hslash, slashClass, Bool.false_eq_true, if_false]
    by_cases hone : isBlank (extChar call (sp + 2)) = true
    · exact .inl (by simp only [if_pos hone, and_self])
    · by_cases htwo : isBlank (extChar call (sp + 3)) = true
      · exact .inr (.inl (by simp only [if_neg hone, if_pos htwo, and_self]))
      · exact .inr (.inr (by simp only [if_neg hone, if_neg htwo, and_self]))

/-- A message without brackets is never an error (60_exceptions.md R301). -/
theorem encNormal_plain_ne_none {call : Vector Byte 12} (hopen : opensBracket call = false) (loc : Vector Byte 6)
    (pwr : Int) : encNormal call loc pwr ≠ none := by
  obtain ⟨-, h⟩ | ⟨_, -, ⟨-, h⟩ | ⟨-, h⟩ | ⟨-, h⟩⟩ := messageClass_plain_cases hopen loc pwr <;> simp [h]

/-- The error is the case of two steps (40_encode_sequence.md R133). -/
theorem enc_eq_none_iff (c : Vector Byte 12) (l : Vector Byte 6) (p : Byte) :
    enc c l p = none ↔ encodeSteps c = 2 := by
  rw [enc_eq_encNormal, ← encodeSteps_normCall]
  generalize normCall c = call
  cases hopen : opensBracket call with
  | true =>
    cases hclose : closeIndex call with
    | none => simp [encNormal_unclosed hopen hclose, encodeSteps_unclosed hopen hclose]
    | some g => simp [encNormal_bracketed hopen hclose, encodeSteps_bracketed hopen hclose]
  | false => simp [encNormal_plain_ne_none hopen, encodeSteps_plain hopen]

/-- After a FIELD operation the result is that of the two integers it has reduced to `N` and `M`. -/
theorem State.result_writeFields (s : State) (n m : Int) :
    ((s.writeFields n m).goto phPackb).result = some (symbolsOfFields n m) := by
  rw [State.result_packb rfl, symbolsOfFields_eq]
  rfl

/-- FIELD keeps the result: `MTYPE` selects the operation of the message's own class. -/
theorem field_keeps_result {s t : State} (hs : s.Inv) (hphase : s.phase = phField) {i : Instr}
    (hi : decodeSelect s.opsel = .ok i) (ht : exec i s = .next t) : t.result = s.result := by
  have hop := decodeSelect_cases hi
  have hpast : s.PastClass := State.pastClass_of_phase hphase (by decide)
  obtain ⟨hclass, -⟩ := hs.klass (ne_mtNone_of_range (hs.mtype_range hpast).1)
  simp only [State.opsel, phaseField_append, mtypeField_append, hphase] at hop
  by_cases ht3 : s.mtype = mtT3
  · obtain rfl : i = .fieldT3 := by simpa [ht3, phField, mtT3] using hop
    cases (exec_fieldT3 s).symm.trans ht
    rw [State.result_writeFields, State.result_field_t3 hphase ht3]
  · have hopen : opensBracket s.call = false := by
      rw [← Bool.not_eq_true]
      exact fun h => ht3 (hclass.trans (messageClass_of_opensBracket h))
    rw [State.result_field hphase ht3]
    obtain ⟨hm, hres⟩ | ⟨sp, hslash, ⟨hm, hres⟩ | ⟨hm, hres⟩ | ⟨hm, hres⟩⟩ :=
      messageClass_plain_cases hopen s.loc s.pwr.toInt
    · obtain rfl : i = .fieldT1 := by simpa [hclass, hm, phField, mtT1] using hop
      cases (exec_fieldT1 s).symm.trans ht
      rw [State.result_writeFields, hres]
    · obtain rfl : i = .fieldT2S1 := by simpa [hclass, hm, phField, mtT2S1] using hop
      cases (exec_fieldT2S1 hslash).symm.trans ht
      rw [State.result_writeFields, hres]
    · obtain rfl : i = .fieldT2S2 := by simpa [hclass, hm, phField, mtT2S2] using hop
      cases (exec_fieldT2S2 hslash).symm.trans ht
      rw [State.result_writeFields, hres]
    · obtain rfl : i = .fieldT2P := by simpa [hclass, hm, phField, mtT2P] using hop
      cases (exec_fieldT2P hslash).symm.trans ht
      rw [State.result_writeFields, hres]

/-! ## HASH -/

/-- HASH is the stage of Type 3 alone (40_encode_sequence.md R132). -/
theorem State.Inv.mtype_eq_mtT3 {s : State} (hs : s.Inv) (hphase : s.phase = phHash) : s.mtype = mtT3 := by
  rcases hs.select with ⟨h, -⟩ | ⟨h | h, -⟩ | ⟨-, h⟩ | ⟨h | h | h | h | h, -⟩
  case inr.inr.inl => exact h
  all_goals rw [hphase] at h; exact absurd h (by decide)

/-- HASH keeps the result: the bracket CLASS has found gives ENC's own hash. -/
theorem hash_keeps_result {s t : State} (hs : s.Inv) (hphase : s.phase = phHash) (ht : exec .hash s = .next t) :
    t.result = s.result := by
  have hpast : s.PastClass := State.pastClass_of_phase hphase (by decide)
  obtain ⟨hclass, hbracket⟩ := hs.klass (ne_mtNone_of_range (hs.mtype_range hpast).1)
  have ht3 := hs.mtype_eq_mtT3 hphase
  have hopen : opensBracket s.call = true := by
    by_contra h
    exact messageClass_ne_mtT3 (Bool.eq_false_of_not_eq_true h) (hclass.symm.trans ht3)
  obtain ⟨g, hclose⟩ := Option.ne_none_iff_exists'.mp (hbracket hpast.1 ht3)
  cases (exec_hash hclose).symm.trans ht
  rw [State.result_hash hphase, encNormal_bracketed hopen hclose, hash15Of_eq_hashRegs]
  exact State.result_field_t3 rfl ht3

/-! ## Every sequencer operation -/

section
variable {s t : State} {i : Instr}

/-- A sequencer operation of the phase at hand keeps the result. -/
theorem exec_keeps_result (hs : s.Inv) (hi : decodeSelect s.opsel = .ok i) (ht : exec i s = .next t) :
    t.result = s.result := by
  have hcode := State.phaseCode_of_opsel hi
  have hphase : ∀ {p}, i.phaseCode = some p → s.phase = p := fun hp => Option.some.inj (hcode.symm.trans hp)
  cases exec_effect ht with
  | norm => rw [State.result_class rfl, State.result_norm (hphase rfl), enc_eq_encNormal]; rfl
  | classBracketed => rw [State.result_hash rfl, State.result_class (hphase rfl)]; rfl
  | classUnclosed _ hopen hclose =>
    have hdone : s.done = false := (hs.flagsClear_atClass (hphase rfl)).1
    rw [State.result_idle rfl, State.result_class (hphase rfl), encNormal_unclosed hopen hclose]
    simp [hdone]
  | classPlain _ hopen =>
    rw [State.result_field rfl (messageClass_ne_mtT3 hopen), State.result_class (hphase rfl)]; rfl
  | hash => exact hash_keeps_result hs (hphase rfl) ht
  | field _ hfield => exact field_keeps_result hs (hphase hfield.phaseCode) hi ht
  | packb => rw [State.result_conv rfl, State.result_packb (hphase rfl)]; rfl
  | conv => rw [State.result_ilv rfl, State.result_conv (hphase rfl)]; rfl
  | ilv =>
    rw [State.result_merge rfl, State.result_ilv (hphase rfl),
      interleave_old s.sBits (Vector.replicate 162 false) s.dBits, State.goto_dBits]
  | merge => rw [State.result_idle rfl, State.result_merge (hphase rfl)]; rfl
  | wrCallIn | wrLocIn | wrPwrIn | start | reset => cases hcode
  | passive _ hhost => rw [hhost] at hcode; cases hcode

/-- A sequencer operation of the phase at hand uses up one step. -/
theorem exec_stepsLeft (hi : decodeSelect s.opsel = .ok i) (ht : exec i s = .next t) :
    t.stepsLeft = s.stepsLeft - 1 := by
  have hcode := State.phaseCode_of_opsel hi
  have hphase : ∀ {p}, i.phaseCode = some p → s.phase = p := fun hp => Option.some.inj (hcode.symm.trans hp)
  cases exec_effect ht with
  | norm => simp [State.stepsLeft, hphase rfl, phNorm, phClass]
  | classBracketed _ g hopen hclose =>
    simp [State.stepsLeft, hphase rfl, phClass, phHash, encodeSteps_bracketed hopen hclose]
  | classUnclosed _ hopen hclose =>
    simp [State.stepsLeft, hphase rfl, phClass, phIdle, encodeSteps_unclosed hopen hclose]
  | classPlain _ hopen => simp [State.stepsLeft, hphase rfl, phClass, phField, encodeSteps_plain hopen]
  | hash => simp [State.stepsLeft, hphase rfl, phHash, phField]
  | field _ hfield => simp [State.stepsLeft, hphase hfield.phaseCode, phField, phPackb]
  | packb => simp [State.stepsLeft, hphase rfl, phPackb, phConv]
  | conv => simp [State.stepsLeft, hphase rfl, phConv, phIlv]
  | ilv => simp [State.stepsLeft, hphase rfl, phIlv, phMerge]
  | merge => simp [State.stepsLeft, hphase rfl, phMerge, phIdle]
  | wrCallIn | wrLocIn | wrPwrIn | start | reset => cases hcode
  | passive _ hhost => rw [hhost] at hcode; cases hcode

/-- A sequencer operation that ends the encode leaves a flag that says how. -/
theorem exec_ends_flagged (hi : i.phaseCode = some s.phase) (ht : exec i s = .next t) (hidle : t.phase = phIdle) :
    t.done = true ∨ t.err = true := by
  cases exec_effect ht with
  | merge => exact .inl rfl
  | classUnclosed => exact .inr rfl
  | norm | classBracketed | classPlain | hash | field | packb | conv | ilv => exact absurd hidle (by simp; decide)
  | wrCallIn | wrLocIn | wrPwrIn | start | reset => cases hi
  | passive _ hhost => rw [hhost] at hi; cases hi

end

end Sys2Proof.Machine
end

section
/-! The encode under any interleaving of quiet turns: the sequencer's turns use up the steps, host accesses leave the
encode alone, and the turns' number of the sequencer says where the encode stands (40_encode_sequence.md R133,
20_memory.md R72, 70_reset_and_hazards.md R337). -/

namespace Sys2Proof.Machine

/-! ## Turns -/

/-- No operation touches the turns to come. -/
theorem exec_keeps_agenda {i : Instr} {s t : State} (h : exec i s = .next t) : t.agenda = s.agenda := by
  cases exec_effect h <;> rfl

/-- A step takes off the turn at hand. -/
theorem step_agenda {s t : State} (h : step s = .next t) : t.agenda = s.agenda.tail := by
  obtain rfl | ⟨i, -, hexec⟩ := step_runs h
  · rfl
  · exact exec_keeps_agenda hexec

section
variable {s : State} (hs : s.AtSequencer)
include hs

/-- While idle the sequencer's turn passes (40_encode_sequence.md R131). -/
theorem step_idle (hidle : s.phase = phIdle) : step s = .next s.endTurn := by
  have hbusy := s.busy_eq_false_iff.mpr hidle
  simp only [step, hs.fetch, State.sequencerWord, hbusy]
  rfl

theorem step_select (hphase : s.phase ≠ phIdle) {i : Instr} (hi : decodeSelect s.opsel = .ok i) :
    step s = exec i s.endTurn := by
  have hbusy := s.busy_eq_true_iff.mpr hphase
  simp only [step, hs.fetch, State.sequencerWord, hbusy, if_true, decodeWord, hi]

end

theorem State.endTurn_sameEncode (s : State) : s.sameEncode s.endTurn := by simp [State.sameEncode]

/-- A host operation other than START leaves the encode alone. -/
theorem exec_sameEncode {i : Instr} {s t : State} (hcode : i.phaseCode = none) (hstart : ∀ x, i ≠ .start x)
    (hreset : i ≠ .reset) (h : exec i s = .next t) : s.sameEncode t := by
  cases exec_effect h with
  | wrCallIn | wrLocIn | wrPwrIn | passive => simp [State.sameEncode]
  | start x => exact absurd rfl (hstart x)
  | reset => exact absurd rfl hreset
  | field _ hfield => rw [hfield.phaseCode] at hcode; cases hcode
  | norm | classBracketed | classUnclosed | classPlain | hash | packb | conv | ilv | merge => cases hcode

theorem Turn.quiet_host {w : Hacc} (h : (Turn.host w).quiet = true) (x : BitVec 7) : decodeAccess w ≠ .start x := by
  intro hstart
  rw [Turn.quiet, hstart] at h
  cases h

/-- A quiet host access leaves the encode alone (70_reset_and_hazards.md R337). -/
theorem step_quiet_host {s : State} {w : Hacc} {rest : List Turn} (hagenda : s.agenda = .host w :: rest)
    (hquiet : (Turn.host w).quiet = true) : ∃ t, step s = .next t ∧ s.sameEncode t := by
  obtain ⟨t, ht⟩ := exec_isNext (decodeAccess w) s.endTurn
  have hsame : s.endTurn.sameEncode t :=
    exec_sameEncode (decodeAccess_phaseCode w) (Turn.quiet_host hquiet) (decodeAccess_ne_reset w) ht
  refine ⟨t, ?_, hsame⟩
  simp only [step, State.fetch, hagenda, decodeWord, ht]

/-! ## An encode under way -/

/-- An encode of this result with this many of the sequencer's steps to come, or ended with a flag that says how. -/
structure State.Encoding (s : State) (r : Option Symbols) (n : Nat) : Prop where
  inv : s.Inv
  result : s.result = r
  stepsLeft : s.stepsLeft = n
  flagged : s.phase = phIdle → s.done = true ∨ s.err = true

section
variable {s t : State} {r : Option Symbols} {n : Nat}

theorem State.Encoding.of_sameEncode (h : s.Encoding r n) (hsame : s.sameEncode t) : t.Encoding r n := by
  obtain ⟨hresult, hsteps⟩ := State.result_of_sameEncode hsame
  refine ⟨h.inv.of_sameEncode hsame, hresult.trans h.result, hsteps.trans h.stepsLeft, ?_⟩
  obtain ⟨-, -, -, hphase, -, hdone, herr, -⟩ := hsame
  rw [← hphase, ← hdone, ← herr]
  exact h.flagged

/-- The sequencer has steps left exactly while it is busy. -/
theorem State.stepsLeft_eq_zero_iff (hs : s.Inv) : s.stepsLeft = 0 ↔ s.phase = phIdle := by
  have hcount := (encodeSteps_bounds s.call).1
  rcases hs.select with ⟨h, -⟩ | ⟨h | h, -⟩ | ⟨h, -⟩ | ⟨h | h | h | h | h, -⟩ <;>
    simp [State.stepsLeft, h, phIdle, phNorm, phClass, phHash, phField, phPackb, phConv, phIlv, phMerge] <;> omega

theorem State.Encoding.exec_select (h : s.Encoding r n) {i : Instr} (hi : decodeSelect s.opsel = .ok i)
    (ht : exec i s = .next t) : t.Encoding r (n - 1) := by
  have hcode := State.phaseCode_of_opsel hi
  refine ⟨exec_keeps_inv h.inv (fun p hp => Option.some.inj (hcode.symm.trans hp)) ht, ?_, ?_, ?_⟩
  · rw [exec_keeps_result h.inv hi ht, h.result]
  · rw [exec_stepsLeft hi ht, h.stepsLeft]
  · exact exec_ends_flagged hcode ht

/-- A sequencer turn takes one of the steps, if there is one. -/
theorem State.Encoding.step_sequencer (h : s.Encoding r n) (hs : s.AtSequencer) :
    ∃ t, step s = .next t ∧ t.Encoding r (n - 1) := by
  have hturn : s.endTurn.Encoding r n := h.of_sameEncode s.endTurn_sameEncode
  by_cases hidle : s.phase = phIdle
  · have hzero : n = 0 := h.stepsLeft.symm.trans ((State.stepsLeft_eq_zero_iff h.inv).mpr hidle)
    exact ⟨_, step_idle hs hidle, by rwa [hzero] at hturn ⊢⟩
  · obtain ⟨i, hi⟩ := h.inv.select.opsel_decodes hidle
    obtain ⟨t, ht⟩ := exec_isNext i s.endTurn
    exact ⟨t, (step_select hs hidle hi).trans ht, hturn.exec_select hi ht⟩

/-- A quiet turn takes a step if it is the sequencer's, and none if it is the host's. -/
theorem State.Encoding.step_quiet (h : s.Encoding r n) {u : Turn} {rest : List Turn} (hagenda : s.agenda = u :: rest)
    (hquiet : u.quiet = true) : ∃ t, step s = .next t ∧ t.agenda = rest ∧ t.Encoding r (n - seqCount [u]) := by
  have hrest : ∀ {t}, step s = .next t → t.agenda = rest := fun ht => by rw [step_agenda ht, hagenda]; rfl
  cases u with
  | seq =>
    obtain ⟨t, ht, hencoding⟩ := h.step_sequencer (.inr (by rw [hagenda]; rfl))
    exact ⟨t, ht, hrest ht, hencoding⟩
  | host w =>
    obtain ⟨t, ht, hsame⟩ := step_quiet_host hagenda hquiet
    exact ⟨t, ht, hrest ht, h.of_sameEncode hsame⟩
  | reset => cases hquiet

end

theorem run_succ {s t : State} (h : step s = .next t) (k : Nat) :
    Sys2Proof.core.run (k + 1) s = Sys2Proof.core.run k t := by
  have hstep : Sys2Proof.core.step s = .next t := h
  simp only [Host.Core.run, hstep]

/-- Along quiet turns the sequencer's turns use up the steps. -/
theorem State.Encoding.run_quiet {turns rest : List Turn} {s : State} {r : Option Symbols} {n : Nat}
    (h : s.Encoding r n) (hagenda : s.agenda = turns ++ rest) (hquiet : ∀ u ∈ turns, u.quiet = true) :
    ∃ t, Sys2Proof.core.run turns.length s = .next t ∧ t.Encoding r (n - seqCount turns) := by
  induction turns generalizing s n with
  | nil => exact ⟨s, rfl, h⟩
  | cons u us ih =>
    obtain ⟨s', hstep, hagenda', h'⟩ := h.step_quiet hagenda (hquiet u List.mem_cons_self)
    obtain ⟨t, hrun, ht⟩ := ih h' hagenda' fun v hv => hquiet v (List.mem_cons_of_mem _ hv)
    refine ⟨t, (run_succ hstep _).trans hrun, ?_⟩
    have hcount : seqCount (u :: us) = seqCount [u] + seqCount us := List.countP_append (l₁ := [u])
    rwa [hcount, ← Nat.sub_sub]

/-! ## From START -/

/-- The turn of START. -/
theorem step_start {s : State} {x : BitVec 7} {turns : List Turn} (hidle : s.phase = phIdle)
    (hagenda : s.agenda = .host (accessWord true 0x019#9 (x ++ 1#1)) :: turns) :
    step s = .next s.endTurn.started := by
  have hbit : (x ++ 1#1).getLsbD 0 = true := by rw [BitVec.getLsbD_append]; rfl
  have hexec := write_ctrl_start (show (0x019#9).toNat = 0x019 from rfl) s.endTurn hbit
  rw [exec_start_of_idle (by exact hidle)] at hexec
  simp only [step, State.fetch, hagenda, decodeWord, hexec]

/-- START begins the encode of the inputs as they stand. -/
theorem State.started_encoding (s : State) :
    s.started.Encoding (enc s.callIn s.locIn s.pwrIn) (encodeSteps s.callIn) :=
  ⟨.start s, State.result_norm rfl, rfl, fun h => absurd (show phNorm = phIdle from h) (by decide)⟩

/-- START and then quiet turns: as many steps are left of the encode as the sequencer has not had. -/
theorem run_start_quiet {s : State} {x : BitVec 7} {turns rest : List Turn} (hidle : s.phase = phIdle)
    (hagenda : s.agenda = .host (accessWord true 0x019#9 (x ++ 1#1)) :: (turns ++ rest))
    (hquiet : ∀ u ∈ turns, u.quiet = true) :
    ∃ t, Sys2Proof.core.run (1 + turns.length) s = .next t ∧
      t.Encoding (enc s.callIn s.locIn s.pwrIn) (encodeSteps s.callIn - seqCount turns) := by
  have hrest : s.endTurn.started.agenda = turns ++ rest := by
    change s.agenda.tail = _
    rw [hagenda]; rfl
  obtain ⟨t, hrun, ht⟩ := s.endTurn.started_encoding.run_quiet hrest hquiet
  refine ⟨t, ?_, ht⟩
  rw [Nat.add_comm, run_succ (step_start hidle hagenda), hrun]

/-! ## What the flags say -/

section
variable {s : State} {r : Option Symbols} {n : Nat} (h : s.Encoding r n)
include h

theorem State.Encoding.idle_iff : s.phase = phIdle ↔ n = 0 := by
  rw [← State.stepsLeft_eq_zero_iff h.inv, h.stepsLeft]

theorem State.Encoding.busy_iff : s.busy = true ↔ n ≠ 0 := by
  rw [s.busy_eq_true_iff, ne_eq, h.idle_iff]

/-- Ended with symbols: `DONE` and no error. -/
theorem State.Encoding.published (hn : n = 0) {y : Symbols} (hr : r = some y) :
    s.done = true ∧ s.err = false ∧ s.errcode = 0#4 ∧ s.sym = y := by
  have hresult := h.result
  rw [State.result_idle (h.idle_iff.mpr hn), hr] at hresult
  obtain ⟨-, hexclusive, -, hcode⟩ := h.inv.flags
  split at hresult
  · next hdone =>
    have herr := hexclusive hdone
    exact ⟨hdone, herr, hcode herr, Option.some.inj hresult⟩
  · cases hresult

/-- Ended without: the error. -/
theorem State.Encoding.failed (hn : n = 0) (hr : r = none) : s.done = false ∧ s.err = true ∧ s.errcode = 1#4 := by
  have hresult := h.result
  rw [State.result_idle (h.idle_iff.mpr hn), hr] at hresult
  obtain ⟨-, -, hcode, -⟩ := h.inv.flags
  split at hresult
  · cases hresult
  · next hdone =>
    have herr := (h.flagged (h.idle_iff.mpr hn)).resolve_left hdone
    exact ⟨Bool.eq_false_of_not_eq_true hdone, herr, hcode herr⟩

theorem State.Encoding.flags_of_busy (hn : n ≠ 0) : s.done = false ∧ s.err = false := by
  obtain ⟨hdone, herr, -⟩ := h.inv.flagsClear_of_busy (mt h.idle_iff.mp hn)
  exact ⟨hdone, herr⟩

theorem State.Encoding.done_iff : s.done = true ↔ n = 0 ∧ r ≠ none := by
  by_cases hn : n = 0
  · cases hr : r with
    | none => simp [(h.failed hn hr).1]
    | some y => simp [(h.published hn hr).1, hn]
  · simp [(h.flags_of_busy hn).1, hn]

theorem State.Encoding.err_iff : s.err = true ↔ n = 0 ∧ r = none := by
  by_cases hn : n = 0
  · cases hr : r with
    | none => simp [(h.failed hn hr).2.1, hn]
    | some y => simp [(h.published hn hr).2.1]
  · simp [(h.flags_of_busy hn).2, hn]

end

theorem seqCount_replicate (k : Nat) : seqCount (List.replicate k .seq) = k := by
  simp [seqCount, List.countP_replicate]

/-- Settles O56: after `k` sequencer turns the encode has its count less `k` steps left, and the flags follow. -/
theorem encodeTakesExactSteps : Obligations.EncodeTakesExactSteps := by
  intro s x n hidle hagenda k hk
  have hsplit : List.replicate n Turn.seq = List.replicate k .seq ++ List.replicate (n - k) .seq := by
    rw [List.replicate_append_replicate, Nat.add_sub_cancel' hk]
  have hquiet : ∀ u ∈ List.replicate k Turn.seq, u.quiet = true := by
    intro u hu
    rw [List.eq_of_mem_replicate hu]; rfl
  rw [hsplit] at hagenda
  obtain ⟨t, hrun, ht⟩ := run_start_quiet hidle hagenda hquiet
  rw [List.length_replicate] at hrun
  rw [seqCount_replicate] at ht
  refine ⟨t, hrun, ?_, ?_, ?_⟩
  · rw [ht.busy_iff]; omega
  · rw [ht.done_iff, ne_eq, enc_eq_none_iff]; omega
  · rw [ht.err_iff, enc_eq_none_iff]; omega

/-- Settles O57: with eight sequencer turns no step is left, and what the encode ends with is ENC. -/
theorem encodeIsEnc : Obligations.EncodeIsEnc := by
  intro s x turns hidle hagenda hquiet hcount
  obtain ⟨t, hrun, ht⟩ := run_start_quiet (rest := []) hidle (by rwa [List.append_nil]) hquiet
  have hzero : encodeSteps s.callIn - seqCount turns = 0 := by
    have := (encodeSteps_bounds s.callIn).2
    omega
  exact ⟨t, hrun, ht.idle_iff.mpr hzero, fun y hy => ht.published hzero hy, fun hnone => ht.failed hzero hnone⟩

end Sys2Proof.Machine
end

section
/-! NORMCALL slot by slot: the equation in the words of the rule, and the characters it leaves alone
(41_normalizer.md R161). -/

namespace Sys2Proof.Machine

theorem upcase_eq_ite (c : Byte) : upcase c = if 0x61 ≤ c.toNat ∧ c.toNat ≤ 0x7A then c - 0x20#8 else c := by
  simp only [upcase, isLower, decide_eq_true_eq]

/-- Nothing up to `Z` is a lower-case letter. -/
theorem upcase_of_toNat_le {c : Byte} (h : c.toNat ≤ 0x5A) : upcase c = c := by
  rw [upcase_eq_ite, if_neg (by omega)]

theorem upcase_of_isUpper {c : Byte} (h : isUpper c = true) : upcase c = c := by
  simp only [isUpper, decide_eq_true_eq] at h
  exact upcase_of_toNat_le h.2

theorem upcase_of_isDigit {c : Byte} (h : isDigit c = true) : upcase c = c := by
  simp only [isDigit, decide_eq_true_eq] at h
  exact upcase_of_toNat_le (by omega)

theorem normChar_eq_ite (c : Byte) :
    normChar c =
      if c = 0x2F#8 ∨ c = 0x3C#8 ∨ c = 0x3E#8 then c
      else if (0x30 ≤ (upcase c).toNat ∧ (upcase c).toNat ≤ 0x39) ∨ (0x41 ≤ (upcase c).toNat ∧ (upcase c).toNat ≤ 0x5A)
        then upcase c
      else 0x20#8 := by
  simp only [normChar, isDigit, isUpper, Bool.or_eq_true, beq_iff_eq, decide_eq_true_eq, or_assoc, chSlash, chLess,
    chGreater, chSpace]

/-- A character a normalized callsign may hold is left alone. -/
theorem normChar_of_isNormalChar {c : Byte} (h : isNormalChar c = true) : normChar c = c := by
  simp only [isNormalChar, Bool.or_eq_true, beq_iff_eq] at h
  rcases h with (((halnum | rfl) | rfl) | rfl) | rfl
  · have hup : upcase c = c := halnum.elim upcase_of_isDigit upcase_of_isUpper
    rw [normChar, hup, if_pos (Bool.or_eq_true_iff.mpr halnum), ite_self]
  all_goals rfl

theorem normCall_getElem (raw : Vector Byte 12) (i : Fin 12) : (normCall raw)[i] = normChar raw[i] := by
  simp [normCall]

theorem normCall_of_isNormalChar {call : Vector Byte 12} (h : ∀ i : Fin 12, isNormalChar call[i] = true) :
    normCall call = call := by
  refine Vector.ext fun i hi => ?_
  exact (normCall_getElem call ⟨i, hi⟩).trans (normChar_of_isNormalChar (h ⟨i, hi⟩))

/-- Settles O9: the slot-by-slot equation of NORMCALL, with `upcase` written out. -/
theorem normCallsign : Obligations.NormCallsign := by
  intro m s
  refine ⟨_, rfl, fun i => ?_, rfl, rfl⟩
  calc (normCall s.call)[i]
      = normChar s.call[i] := normCall_getElem s.call i
    _ = _ := by rw [normChar_eq_ite, upcase_eq_ite]

end Sys2Proof.Machine
end

section
/-! NORMLOC by cases: what length and ranges say of the bytes, its three answers, and the locators it leaves alone
(41_normalizer.md R164). -/

namespace Sys2Proof.Machine

/-! ## The length: the first 0x00 (10_state.md R23) -/

theorem vector_six_eta (l : Vector Byte 6) : #v[l[0], l[1], l[2], l[3], l[4], l[5]] = l := by
  match l with
  | ⟨⟨[_, _, _, _, _, _]⟩, _⟩ => rfl

theorem locLen_eq_ite (l : Vector Byte 6) :
    locLen l = if l[0] = 0 then 0 else if l[1] = 0 then 1 else if l[2] = 0 then 2 else if l[3] = 0 then 3
      else if l[4] = 0 then 4 else if l[5] = 0 then 5 else 6 := by
  have hlist : l.toList = [l[0], l[1], l[2], l[3], l[4], l[5]] := (congrArg Vector.toList (vector_six_eta l)).symm
  have hnul : chNul = 0 := rfl
  rw [locLen, hlist]
  simp only [List.findIdx_cons, List.findIdx_nil, Bool.cond_eq_ite, beq_iff_eq, hnul]
  split_ifs <;> rfl

theorem locLen_eq_four_iff (l : Vector Byte 6) :
    locLen l = 4 ↔ (l[0] ≠ 0 ∧ l[1] ≠ 0 ∧ l[2] ≠ 0 ∧ l[3] ≠ 0) ∧ l[4] = 0 := by
  rw [locLen_eq_ite]
  split_ifs <;> simp_all

theorem locLen_eq_six_iff (l : Vector Byte 6) :
    locLen l = 6 ↔ (l[0] ≠ 0 ∧ l[1] ≠ 0 ∧ l[2] ≠ 0 ∧ l[3] ≠ 0) ∧ l[4] ≠ 0 ∧ l[5] ≠ 0 := by
  rw [locLen_eq_ite]
  split_ifs <;> simp_all

/-! ## The ranges -/

theorem locFourOk_iff (l : Vector Byte 6) :
    locFourOk l = true ↔ 0x41 ≤ (upcase l[0]).toNat ∧ (upcase l[0]).toNat ≤ 0x52 ∧
      0x41 ≤ (upcase l[1]).toNat ∧ (upcase l[1]).toNat ≤ 0x52 ∧
      0x30 ≤ l[2].toNat ∧ l[2].toNat ≤ 0x39 ∧ 0x30 ≤ l[3].toNat ∧ l[3].toNat ≤ 0x39 := by
  simp only [locFourOk, isFieldLetter, isDigit, Bool.and_eq_true, decide_eq_true_eq, and_assoc]

/-- The last two characters are in their range. -/
def locLastOk (l : Vector Byte 6) : Bool := isSubsquareLetter l[4] && isSubsquareLetter l[5]

theorem locLastOk_iff (l : Vector Byte 6) :
    locLastOk l = true ↔ 0x41 ≤ (upcase l[4]).toNat ∧ (upcase l[4]).toNat ≤ 0x58 ∧
      0x41 ≤ (upcase l[5]).toNat ∧ (upcase l[5]).toNat ≤ 0x58 := by
  simp only [locLastOk, isSubsquareLetter, Bool.and_eq_true, decide_eq_true_eq, and_assoc]

/-! ## The three answers -/

section
variable {l : Vector Byte 6}

theorem normLoc_of_four (hlen : locLen l = 4) (hok : locFourOk l = true) :
    normLoc l = #v[upcase l[0], upcase l[1], l[2], l[3], chNul, chNul] := by
  rw [normLoc, if_pos hlen, if_pos hok]

theorem normLoc_of_six (hlen : locLen l = 6) (hok : locFourOk l = true) (hlast : locLastOk l = true) :
    normLoc l = #v[upcase l[0], upcase l[1], l[2], l[3], upcase l[4], upcase l[5]] := by
  have hranges : (locFourOk l && isSubsquareLetter l[4] && isSubsquareLetter l[5]) = true := by
    rwa [hok, Bool.true_and]
  rw [normLoc, if_neg (by omega), if_pos hlen, if_pos hranges]

/-- Any violation loses the whole locator. -/
theorem normLoc_of_invalid (hfour : ¬ (locLen l = 4 ∧ locFourOk l = true))
    (hsix : ¬ (locLen l = 6 ∧ locFourOk l = true ∧ locLastOk l = true)) : normLoc l = fallbackLoc := by
  rw [normLoc]
  split
  · next hlen => exact if_neg fun hok => hfour ⟨hlen, hok⟩
  · split
    · next hlen =>
      refine if_neg fun hok => hsix ⟨hlen, ?_⟩
      rwa [Bool.and_assoc, Bool.and_eq_true] at hok
    · rfl

end

/-- Settles O10: each of its three cases is one of the three answers, read through the length and the ranges. -/
theorem normLocator : Obligations.NormLocator := by
  intro m s
  refine ⟨_, rfl, ⟨?_, ?_, ?_⟩, rfl⟩
  · rintro ⟨hchars, hend, hranges⟩
    exact normLoc_of_four ((locLen_eq_four_iff _).mpr ⟨hchars, hend⟩) ((locFourOk_iff _).mpr hranges)
  · rintro ⟨hchars, h4, h5, hranges, hlast⟩
    exact normLoc_of_six ((locLen_eq_six_iff _).mpr ⟨hchars, h4, h5⟩) ((locFourOk_iff _).mpr hranges)
      ((locLastOk_iff _).mpr hlast)
  · rintro ⟨hfour, hsix⟩
    refine normLoc_of_invalid (fun ⟨hlen, hok⟩ => hfour ?_) (fun ⟨hlen, hok, hlast⟩ => hsix ?_)
    · obtain ⟨hchars, hend⟩ := (locLen_eq_four_iff _).mp hlen
      exact ⟨hchars, hend, (locFourOk_iff _).mp hok⟩
    · obtain ⟨hchars, h4, h5⟩ := (locLen_eq_six_iff _).mp hlen
      exact ⟨hchars, h4, h5, (locFourOk_iff _).mp hok, (locLastOk_iff _).mp hlast⟩

/-! ## What NORMLOC leaves alone -/

theorem ne_zero_of_isUpper {c : Byte} (h : isUpper c = true) : c ≠ 0 := by
  rintro rfl
  exact absurd h (by decide)

theorem ne_zero_of_isDigit {c : Byte} (h : isDigit c = true) : c ≠ 0 := by
  rintro rfl
  exact absurd h (by decide)

theorem isFieldLetter_of_isUpper {c : Byte} (h : isUpper c = true) (hhigh : c.toNat ≤ 0x52) :
    isFieldLetter c = true := by
  rw [isFieldLetter, upcase_of_isUpper h]
  simp only [isUpper, decide_eq_true_eq] at h ⊢
  exact ⟨h.1, hhigh⟩

theorem isSubsquareLetter_of_isUpper {c : Byte} (h : isUpper c = true) (hhigh : c.toNat ≤ 0x58) :
    isSubsquareLetter c = true := by
  rw [isSubsquareLetter, upcase_of_isUpper h]
  simp only [isUpper, decide_eq_true_eq] at h ⊢
  exact ⟨h.1, hhigh⟩

/-- A normalized locator is left alone: it has four or six characters, all in range and in upper case. -/
theorem normLoc_of_isNormalLoc {l : Vector Byte 6} (h : isNormalLoc l = true) : normLoc l = l := by
  simp only [isNormalLoc, Bool.and_eq_true, Bool.or_eq_true, beq_iff_eq, decide_eq_true_eq] at h
  obtain ⟨⟨⟨⟨⟨⟨hu0, hr0⟩, hu1⟩, hr1⟩, hd2⟩, hd3⟩, hlast⟩ := h
  have hchars : l[0] ≠ 0 ∧ l[1] ≠ 0 ∧ l[2] ≠ 0 ∧ l[3] ≠ 0 :=
    ⟨ne_zero_of_isUpper hu0, ne_zero_of_isUpper hu1, ne_zero_of_isDigit hd2, ne_zero_of_isDigit hd3⟩
  have hok : locFourOk l = true := by
    simp only [locFourOk, isFieldLetter_of_isUpper hu0 hr0, isFieldLetter_of_isUpper hu1 hr1, hd2, hd3, Bool.and_self]
  rcases hlast with ⟨h4, h5⟩ | ⟨⟨⟨hu4, hr4⟩, hu5⟩, hr5⟩
  · rw [normLoc_of_four ((locLen_eq_four_iff l).mpr ⟨hchars, h4⟩) hok, upcase_of_isUpper hu0, upcase_of_isUpper hu1]
    conv_rhs => rw [← vector_six_eta l, h4, h5]
  · have hsub : locLastOk l = true := by
      simp only [locLastOk, isSubsquareLetter_of_isUpper hu4 hr4, isSubsquareLetter_of_isUpper hu5 hr5, Bool.and_self]
    rw [normLoc_of_six ((locLen_eq_six_iff l).mpr ⟨hchars, ne_zero_of_isUpper hu4, ne_zero_of_isUpper hu5⟩) hok hsub,
      upcase_of_isUpper hu0, upcase_of_isUpper hu1, upcase_of_isUpper hu4, upcase_of_isUpper hu5, vector_six_eta]

end Sys2Proof.Machine
end

section
/-! NORMPWR as the greatest legal power not above its argument: the walk over an ascending table keeps the last entry
that is not above (41_normalizer.md R167). -/

namespace Sys2Proof.Machine

/-! ## Walking a table -/

/-- One step of the walk of NORMPWR. -/
def keepNotAbove (p best v : Int) : Int := if v ≤ p then v else best

theorem normPwr_eq_foldl (p : Int) : normPwr p = pwrTable.foldl (keepNotAbove p) (-30) := rfl

/-- The walk moves only to entries that are not above. -/
theorem foldl_keepNotAbove_eq_or_le (p : Int) (vs : List Int) (best : Int) :
    vs.foldl (keepNotAbove p) best = best ∨ vs.foldl (keepNotAbove p) best ≤ p := by
  induction vs generalizing best with
  | nil => exact .inl rfl
  | cons v vs ih =>
    rw [List.foldl_cons, keepNotAbove]
    split
    · next hv => exact .inr ((ih v).elim (fun h => h.trans_le hv) id)
    · exact ih best

/-- In an ascending table no entry that is not above is missed. -/
theorem le_foldl_keepNotAbove {p : Int} {vs : List Int} {best : Int} (hsorted : (best :: vs).Pairwise (· ≤ ·)) :
    ∀ v ∈ best :: vs, v ≤ p → v ≤ vs.foldl (keepNotAbove p) best := by
  induction vs generalizing best with
  | nil => simp
  | cons w vs ih =>
    intro v hmem hv
    rw [List.foldl_cons, keepNotAbove]
    obtain ⟨hbest, htail⟩ := List.pairwise_cons.mp hsorted
    split
    · next hw =>
      rcases List.mem_cons.mp hmem with rfl | hmem
      · exact (hbest w List.mem_cons_self).trans (ih htail w List.mem_cons_self hw)
      · exact ih htail v hmem hv
    · next hw =>
      have hne : v ≠ w := fun h => hw (h ▸ hv)
      have hmem' : v ∈ best :: vs := by simpa [hne] using hmem
      exact ih (hsorted.sublist ((List.sublist_cons_self w vs).cons_cons best)) v hmem' hv

/-! ## The table of legal powers -/

theorem normPwr_ge (p : Int) : -30 ≤ normPwr p := (pwrTable_bounds _ (normPwr_mem p)).1

theorem normPwr_eq_or_le (p : Int) : normPwr p = -30 ∨ normPwr p ≤ p := by
  rw [normPwr_eq_foldl]
  exact foldl_keepNotAbove_eq_or_le p pwrTable (-30)

theorem normPwr_of_lt {p : Int} (h : p < -30) : normPwr p = -30 := by
  refine (normPwr_eq_or_le p).resolve_right fun hle => ?_
  exact absurd ((normPwr_ge p).trans hle) (by omega)

theorem normPwr_le {p : Int} (h : -30 ≤ p) : normPwr p ≤ p :=
  (normPwr_eq_or_le p).elim (fun hkept => hkept.trans_le h) id

theorem le_normPwr {p v : Int} (hmem : v ∈ pwrTable) (hv : v ≤ p) : v ≤ normPwr p := by
  rw [normPwr_eq_foldl]
  exact le_foldl_keepNotAbove (by decide) v (List.mem_cons_of_mem _ hmem) hv

theorem normPwr_mono {p q : Int} (h : p ≤ q) : normPwr p ≤ normPwr q := by
  rcases lt_or_ge p (-30) with hlow | hlow
  · exact (normPwr_of_lt hlow).trans_le (normPwr_ge q)
  · exact le_normPwr (normPwr_mem p) ((normPwr_le hlow).trans h)

/-- A legal power is left alone. -/
theorem normPwr_of_mem {v : Int} (h : v ∈ pwrTable) : normPwr v = v :=
  (normPwr_le (pwrTable_bounds v h).1).antisymm (le_normPwr h le_rfl)

/-- Settles O12: the walk misses no legal power that is not above, and every legal power is at least −30. -/
theorem normPowerOverIntegers : Obligations.NormPowerOverIntegers :=
  ⟨fun p hp => ⟨normPwr_mem p, normPwr_le hp, fun _ => le_normPwr⟩, fun _ => normPwr_of_lt, fun _ _ => normPwr_mono,
    rfl, rfl⟩

/-- Settles O11: the byte stored is NORMPWR of the signed byte, which fits. -/
theorem normPowerIsGreatestLegal : Obligations.NormPowerIsGreatestLegal := by
  intro m s
  have hstored : (BitVec.ofInt 8 (normPwr s.pwr.toInt)).toInt = normPwr s.pwr.toInt :=
    toInt_ofInt_of_mem_pwrTable _ (normPwr_mem _)
  refine ⟨_, rfl, ?_⟩
  simp only [State.goto_pwr, hstored]
  exact ⟨normPwr_mem _, fun hp => ⟨normPwr_le hp, fun _ => le_normPwr⟩, normPwr_of_lt, rfl⟩

end Sys2Proof.Machine
end

section
/-! Normalizing what is normalized changes nothing (41_normalizer.md R169). -/

namespace Sys2Proof.Machine

theorem exec_norm (m : BitVec 3) (s : State) : exec (.norm m) s = execNorm s := rfl

/-- On a normalized identity NORM only moves on. -/
theorem exec_norm_of_contextNormal {s : State} (h : s.contextNormal) (m : BitVec 3) :
    exec (.norm m) s = .next (s.goto phClass) := by
  obtain ⟨hcall, hloc, hpwr⟩ := h
  rw [exec_norm, execNorm, normCall_of_isNormalChar hcall, normLoc_of_isNormalLoc hloc, normPwr_of_mem hpwr,
    BitVec.ofInt_toInt]

/-- Settles O13: each function leaves normal forms alone and answers one, and NORM leaves a normalized context. -/
theorem normalizationIdempotent : Obligations.NormalizationIdempotent := by
  refine ⟨fun v => ?_, fun v => ?_, fun p => ?_, fun m m' s t h => ?_⟩
  · refine normCall_of_isNormalChar fun i => ?_
    rw [normCall_getElem]
    exact isNormalChar_normChar _
  · exact normLoc_of_isNormalLoc (isNormalLoc_normLoc v)
  · exact normPwr_of_mem (normPwr_mem p)
  · rw [exec_norm_of_contextNormal (normEstablishesFormats m s t h)]
    cases h
    rfl

end Sys2Proof.Machine
end

section
/-! CLASS by the structure of the callsign (43_packer.md R214). -/

namespace Sys2Proof.Machine

section
variable {s : State} (m : BitVec 3)

theorem exec_classify_bracketed {g : Nat} (hopen : opensBracket s.call = true) (hclose : closeIndex s.call = some g) :
    exec (.classify m) s = .next (State.goto { s with mtype := mtT3 } phHash) := by
  simp only [exec, execClassify, hopen, hclose, if_true]

theorem exec_classify_unclosed (hopen : opensBracket s.call = true) (hclose : closeIndex s.call = none) :
    exec (.classify m) s = .next (State.raiseNoClose { s with mtype := mtT3 }) := by
  simp only [exec, execClassify, hopen, hclose, if_true]

theorem exec_classify_plain (hopen : ¬ opensBracket s.call = true) :
    exec (.classify m) s = .next (State.goto { s with mtype := messageClass s.call } phField) := by
  simp only [exec, execClassify, if_neg hopen]

end

section
variable {call : Vector Byte 12} (hopen : ¬ opensBracket call = true)
include hopen

theorem messageClass_of_no_slash (hslash : slashIndex call = none) : messageClass call = mtT1 := by
  simp only [messageClass, if_neg hopen, hslash]

theorem messageClass_of_slash {sp : Nat} (hslash : slashIndex call = some sp) :
    messageClass call = slashClass call sp := by
  simp only [messageClass, if_neg hopen, hslash]

end

theorem slashClass_eq (call : Vector Byte 12) (sp : Nat) : slashClass call sp =
    if extChar call (sp + 2) = 0x20#8 ∨ extChar call (sp + 2) = 0#8 then mtT2S1
    else if extChar call (sp + 3) = 0x20#8 ∨ extChar call (sp + 3) = 0#8 then mtT2S2 else mtT2P := by
  simp only [slashClass, isBlank_iff]

/-- Settles O15: each of the four cases of the callsign is one answer of the two searches. -/
theorem classChoosesType : Obligations.ClassChoosesType := by
  intro m s
  simp only [ne_eq, ← opensBracket_iff]
  refine ⟨fun hopen g hclose => ?_, fun hopen hclose => ?_, fun hopen hslash => ?_, fun hopen sp hslash => ?_⟩
  · exact exec_classify_bracketed m hopen ((closeIndex_eq_some_iff _ _).mpr hclose)
  · exact exec_classify_unclosed m hopen ((closeIndex_eq_none_iff _).mpr hclose)
  · rw [exec_classify_plain m hopen, messageClass_of_no_slash hopen ((slashIndex_eq_none_iff _).mpr hslash)]
    rfl
  · rw [exec_classify_plain m hopen, messageClass_of_slash hopen ((slashIndex_eq_some_iff _ _).mpr hslash),
      slashClass_eq]
    rfl

end Sys2Proof.Machine
end

section
/-! The callsign code as a weighted sum, and the range it has for it (43_packer.md R213, R217). -/

namespace Sys2Proof.Machine

/-- The weight of each slot in the callsign code (30_encoding.md R100). -/
def codeWeight : Fin 6 → Int := ![7085880, 196830, 19683, 729, 27, 1]

theorem codeWeight_pos : ∀ k, 0 < codeWeight k := by decide

theorem call28_eq_sixCode (v : Vector Byte 6) : call28 v = sixCode (charCode v[0]) (charCode v[1]) (charCode v[2])
    (charCode v[3]) (charCode v[4]) (charCode v[5]) := by
  simp only [call28, sixCode]
  ring

/-- Seen from below: the three slots from which 10 is taken make the least value. -/
theorem call28_eq_add_sum (v : Vector Byte 6) :
    call28 v = -7570 + ∑ k : Fin 6, codeWeight k * charCode v[k] := by
  simp [call28_eq_sixCode, sixCode, Fin.sum_univ_six, codeWeight]
  ring

/-- Seen from above: what every slot falls short of the greatest code 36. -/
theorem call28_eq_sub_sum (v : Vector Byte 6) :
    call28 v = 262905830 - ∑ k : Fin 6, codeWeight k * (36 - charCode v[k]) := by
  simp [call28_eq_sixCode, sixCode, Fin.sum_univ_six, codeWeight]
  ring

theorem charCode_bounds (c : Byte) : 0 ≤ charCode c ∧ charCode c ≤ 36 := by
  simp only [charCode, isDigit, isUpper, byteInt, decide_eq_true_eq]
  split
  · omega
  · split <;> omega

section
variable {x : Fin 6 → Int} (hx : ∀ k, 0 ≤ x k)
include hx

theorem weighted_sum_nonneg : 0 ≤ ∑ k, codeWeight k * x k :=
  Finset.sum_nonneg fun k _ => mul_nonneg (codeWeight_pos k).le (hx k)

theorem weighted_sum_eq_zero_iff : ∑ k, codeWeight k * x k = 0 ↔ ∀ k, x k = 0 := by
  rw [Finset.sum_eq_zero_iff_of_nonneg fun k _ => mul_nonneg (codeWeight_pos k).le (hx k)]
  simp [(codeWeight_pos _).ne']

end

/-- Settles O28: the code is the least value plus the weighted codes, and the greatest one less what they lack. -/
theorem callsignCodeRange : Obligations.CallsignCodeRange := by
  intro v
  have hcode : ∀ k : Fin 6, 0 ≤ charCode v[k] := fun k => (charCode_bounds v[k]).1
  have hlack : ∀ k : Fin 6, 0 ≤ 36 - charCode v[k] := fun k => sub_nonneg.mpr (charCode_bounds v[k]).2
  have hlow := weighted_sum_nonneg hcode
  have hhigh := weighted_sum_nonneg hlack
  have hadd := call28_eq_add_sum v
  have hsub := call28_eq_sub_sum v
  refine ⟨by omega, by omega, ?_, ?_⟩
  · rw [← weighted_sum_eq_zero_iff hcode]
    omega
  · have hcodes : (∀ k : Fin 6, charCode v[k] = 36) ↔ ∀ k : Fin 6, 36 - charCode v[k] = 0 :=
      forall_congr' fun k => by omega
    rw [hcodes, ← weighted_sum_eq_zero_iff hlack]
    omega

end Sys2Proof.Machine
end

section
/-! FIELD: the six-character field and the integer of each of the five operations, as the rules write them
(43_packer.md R215, R216, R220 to R233). -/

namespace Sys2Proof.Machine

/-! ## Six-character fields as functions of the slot -/

theorem charCode_space : charCode chSpace = 36 := by decide

theorem call28_pad6 (f : Nat → Byte) : call28 (pad6 (Vector.ofFn fun i => f i.val)) = paddedCode f := by
  simp only [pad6, paddedCode, Bool.and_eq_true, Vector.getElem_ofFn]
  split
  · simp [call28_eq_sixCode, charCode_space]
  · simp [call28_eq_sixCode]

theorem canon6_ofFn (f : Nat → Byte) :
    canon6 (Vector.ofFn fun i => f i.val) = Vector.ofFn fun i => canonChar (f i.val) := by
  simp [canon6]

theorem call28_firstSix (call : Vector Byte 12) : call28 (pad6 (firstSix call)) = paddedCode (extChar call) :=
  call28_pad6 _

theorem call28_baseSuffix (call : Vector Byte 12) (sp : Nat) : call28 (baseSuffix call sp) =
    paddedCode fun k => canonChar (if k < sp then extChar call k else 0x20#8) := by
  rw [baseSuffix, canon6_ofFn fun k => if k < sp then extChar call k else chSpace]
  exact call28_pad6 fun k => canonChar (if k < sp then extChar call k else chSpace)

theorem call28_basePrefix (call : Vector Byte 12) (sp : Nat) : call28 (basePrefix call sp) =
    paddedCode fun k => canonChar (extChar call (sp + 1 + k)) := by
  rw [basePrefix, canon6_ofFn fun k => extChar call (sp + 1 + k)]
  exact call28_pad6 fun k => canonChar (extChar call (sp + 1 + k))

theorem call28_rotateLoc (loc : Vector Byte 6) : call28 (rotateLoc loc) = sixCode (charCode loc[1]) (charCode loc[2])
    (charCode loc[3]) (charCode loc[4]) (charCode loc[5]) (charCode loc[0]) := call28_eq_sixCode _

/-! ## The integers of `M` -/

theorem t2s1M_eq (call : Vector Byte 12) (sp : Nat) (pwr : Int) :
    t2s1M call sp pwr = (27232 + suffixOffset (extChar call (sp + 1))) * 128 + pwr + 66 := by
  simp only [t2s1M]
  ring

/-- The truncation to 22 bits takes away the 32768 that T2S1 subtracts beforehand (43_packer.md R226). -/
theorem t2s2M_emod (call : Vector Byte 12) (sp : Nat) (pwr : Int) : t2s2M call sp pwr % 2 ^ 22 =
    ((27258 + 10 * (byteInt (extChar call (sp + 1)) - 48) + (byteInt (extChar call (sp + 2)) - 48)) * 128 + pwr + 66)
      % 2 ^ 22 := by
  simp only [t2s2M]
  omega

/-- The three characters before the slash, those that are not there blank (43_packer.md R229). -/
def frontChar (call : Vector Byte 12) (sp k : Nat) : Byte := if k < sp then extChar call k else 0x20#8

theorem prefixChar_eq_frontChar {k : Nat} (hk : k < 3) (call : Vector Byte 12) (sp : Nat) :
    prefixChar call sp k = frontChar call sp k := by
  simp [prefixChar, frontChar, hk, chSpace]

theorem prefixFold_eq (call : Vector Byte 12) (sp : Nat) : prefixFold call sp =
    if frontChar call sp 2 = 0x20#8 ∨ frontChar call sp 2 = 0#8 then
      36 * 1369 + charCode (frontChar call sp 0) * 37 + charCode (frontChar call sp 1)
    else charCode (frontChar call sp 0) * 1369 + charCode (frontChar call sp 1) * 37
      + charCode (frontChar call sp 2) := by
  simp only [prefixFold, prefixChars, prefixChar_eq_frontChar, Nat.reduceLT, isBlank_iff]
  split
  · simp only [charCode_space]
    ring
  · ring

theorem t2pM_eq (call : Vector Byte 12) (sp : Nat) (pwr : Int) : t2pM call sp pwr =
    if 32768 ≤ prefixFold call sp then (prefixFold call sp - 32768) * 128 + pwr + 66
    else prefixFold call sp * 128 + pwr + 65 := by
  simp only [t2pM, add_assoc, Int.reduceAdd]

/-! ## The FIELD operations -/

/-- What every FIELD operation leaves: `N` and `M` reduced, PACKB next, and nothing else changed (43_packer.md R210).
`M` is given by its residue, for the one rule whose integer differs from the model's by a multiple of 2^22. -/
theorem exists_next_of_writeFields {i : Instr} {s : State} {n m x y : Int}
    (h : exec i s = .next ((s.writeFields n m).goto phPackb)) (hn : n = x) (hm : m % 2 ^ 22 = y) :
    ∃ t, exec i s = .next t ∧ (t.nReg.toNat : Int) = x % 2 ^ 28 ∧ (t.mReg.toNat : Int) = y ∧
      t.phase = phPackb ∧ t = { s with nReg := t.nReg, mReg := t.mReg, phase := t.phase } :=
  ⟨_, h, hn ▸ s.writeFields_nReg_toNat n m, hm ▸ s.writeFields_mReg_toNat n m, rfl, rfl⟩

/-- Settles O22: the first six slots after the one-letter adjustment, and the model's own integer for `M`. -/
theorem fieldStandard : Obligations.FieldStandard := fun s =>
  exists_next_of_writeFields (exec_fieldT1 s) (call28_firstSix s.call) rfl

/-- Settles O23: the text before the slash, and the offset of the character after it. -/
theorem fieldSingleSuffix : Obligations.FieldSingleSuffix := fun s sp hslash =>
  exists_next_of_writeFields (exec_fieldT2S1 hslash) (call28_baseSuffix s.call sp)
    (congrArg (· % 2 ^ 22) (t2s1M_eq s.call sp s.pwr.toInt))

/-- Settles O24: the integer the model reduces exceeds the rule's by 2^22. -/
theorem fieldTwoSuffix : Obligations.FieldTwoSuffix := fun s sp hslash =>
  exists_next_of_writeFields (exec_fieldT2S2 hslash) (call28_baseSuffix s.call sp)
    (t2s2M_emod s.call sp s.pwr.toInt)

/-- Settles O25: the text after the slash, and the fold of the three characters before it on each side of 32768. -/
theorem fieldPrefix : Obligations.FieldPrefix := by
  intro s sp hslash
  refine exists_next_of_writeFields (exec_fieldT2P hslash) (call28_basePrefix s.call sp) ?_
  rw [t2pM_eq, prefixFold_eq]
  rfl

/-- Settles O27: the locator rotated is six characters with a code like any other. -/
theorem fieldHashed : Obligations.FieldHashed := fun s =>
  exists_next_of_writeFields (exec_fieldT3 s) (call28_rotateLoc s.loc) rfl

end Sys2Proof.Machine
end

section
/-! The packet as one number (43_packer.md R240). -/

namespace Sys2Proof.Machine

/-- The byte in which `N` ends and `M` begins. -/
theorem sharedByte_toNat (n : BitVec 28) (m : BitVec 22) :
    (n.extractLsb' 0 4 ++ m.extractLsb' 18 4).toNat = n.toNat % 16 * 16 + m.toNat / 2 ^ 18 := by
  rw [BitVec.toNat_append, ← Nat.shiftLeft_add_eq_or_of_lt (BitVec.isLt _)]
  simp only [BitVec.extractLsb'_toNat, Nat.shiftLeft_eq, Nat.shiftRight_eq_div_pow]
  omega

/-- The byte in which `M` ends and the zeros begin. -/
theorem lastByte_toNat (m : BitVec 22) : (m.extractLsb' 0 2 ++ 0#6).toNat = m.toNat % 4 * 64 := by
  rw [BitVec.toNat_append, ← Nat.shiftLeft_add_eq_or_of_lt (BitVec.isLt _)]
  simp [Nat.shiftLeft_eq]

/-- The eleven bytes as numbers: `N` in bytes 0 to 3, `M` in bytes 3 to 6, then zeros. -/
theorem packBytes_map_toNat (n : BitVec 28) (m : BitVec 22) : (packBytes n m).toList.map BitVec.toNat =
    [n.toNat / 2 ^ 20 % 256, n.toNat / 2 ^ 12 % 256, n.toNat / 2 ^ 4 % 256, n.toNat % 16 * 16 + m.toNat / 2 ^ 18,
      m.toNat / 2 ^ 10 % 256, m.toNat / 2 ^ 2 % 256, m.toNat % 4 * 64, 0, 0, 0, 0] := by
  simp [packBytes, sharedByte_toNat, lastByte_toNat, Nat.shiftRight_eq_div_pow]

/-- Settles O31: the quotients and remainders in the bytes make `N` and `M` up again. -/
theorem packetIsBigEndian : Obligations.PacketIsBigEndian := by
  intro m s
  refine ⟨_, rfl, ?_, rfl, rfl⟩
  rw [State.goto_pkt, ← List.foldl_map (f := BitVec.toNat) (g := fun acc b => acc * 256 + b), packBytes_map_toNat]
  simp only [List.foldl_cons, List.foldl_nil]
  omega

end Sys2Proof.Machine
end

section
/-! CONV's outputs in closed form: each is the exclusive-or of the stream bits its polynomial taps (44_convolutional.md
R264). What CONV does not read and its linearity over GF(2) follow. -/

namespace Sys2Proof.Machine

/-! ## The exclusive-or of 32 bits -/

/-- The exclusive-or of `f 0` to `f 31`; `parity32` is that of a word's bits (00_scope.md R12). -/
def xorBits (f : Nat → Bool) : Bool := (List.range 32).foldl (fun acc k => acc ^^ f k) false

theorem parity32_eq_xorBits (x : Word32) : parity32 x = xorBits x.getLsbD := rfl

theorem xorBits_congr {f g : Nat → Bool} (h : ∀ k, k < 32 → f k = g k) : xorBits f = xorBits g :=
  List.foldl_ext _ _ _ fun _ k hk => by rw [h k (List.mem_range.1 hk)]

theorem foldl_xor_xor (f g : Nat → Bool) (x y : Bool) (l : List Nat) :
    l.foldl (fun acc k => acc ^^ (f k ^^ g k)) (x ^^ y) =
      (l.foldl (fun acc k => acc ^^ f k) x ^^ l.foldl (fun acc k => acc ^^ g k) y) := by
  induction l generalizing x y with
  | nil => rfl
  | cons k l ih =>
    have hacc : ((x ^^ y) ^^ (f k ^^ g k)) = ((x ^^ f k) ^^ (y ^^ g k)) := by
      simp only [Bool.xor_assoc, Bool.xor_left_comm]
    simp only [List.foldl_cons, hacc]
    exact ih _ _

theorem xorBits_xor (f g : Nat → Bool) : xorBits (fun k => f k ^^ g k) = (xorBits f ^^ xorBits g) :=
  foldl_xor_xor f g false false _

/-! ## The tapped bits -/

/-- The exclusive-or of the bits of a stream that `poly` taps at bit `u`: tap `k` sees the bit `k` places back, and
nothing before the first (44_convolutional.md R264). -/
def tapped (poly : Word32) (b : Nat → Bool) (u : Nat) : Bool :=
  xorBits fun k => poly.getLsbD k && (decide (k ≤ u) && b (u - k))

theorem tapped_congr {b c : Nat → Bool} (poly : Word32) {u : Nat} (h : ∀ t, t ≤ u → b t = c t) :
    tapped poly b u = tapped poly c u :=
  xorBits_congr fun k _ => by rw [h (u - k) (Nat.sub_le u k)]

theorem tapped_xor (poly : Word32) (b c : Nat → Bool) (u : Nat) :
    tapped poly (fun t => b t ^^ c t) u = (tapped poly b u ^^ tapped poly c u) := by
  simp only [tapped, Bool.and_xor_distrib_left, xorBits_xor]

/-! ## The outputs -/

/-- A register that has absorbed `n` bits, at most as many as stand below bit `j`, holds there what it began with. -/
theorem foldl_shiftIn_getLsbD_of_le (f : Nat → Bool) (r : Word32) (n j : Nat) (hj : j < 32) (hn : n ≤ j) :
    (((List.range n).map f).foldl shiftIn r).getLsbD j = r.getLsbD (j - n) := by
  induction n generalizing j with
  | zero => rfl
  | succ n ih =>
    obtain ⟨i, rfl⟩ : ∃ i, j = i + 1 := ⟨j - 1, by omega⟩
    rw [List.range_succ, List.map_append, List.foldl_append]
    calc (shiftIn (((List.range n).map f).foldl shiftIn r) (f n)).getLsbD (i + 1)
        = (((List.range n).map f).foldl shiftIn r).getLsbD i := shiftIn_getLsbD_succ _ _ _ (by omega)
      _ = r.getLsbD (i - n) := ih i (by omega) (by omega)
      _ = r.getLsbD (i + 1 - (n + 1)) := by rw [Nat.add_sub_add_right]

/-- From a zero start (44_convolutional.md R261) the parity of the register's taps is the exclusive-or of the tapped
bits. -/
theorem parity32_foldl_shiftIn (b : Nat → Bool) (poly : Word32) (u : Nat) :
    parity32 (((List.range (u + 1)).map b).foldl shiftIn 0#32 &&& poly) = tapped poly b u := by
  rw [parity32_eq_xorBits]
  refine xorBits_congr fun k hk => ?_
  rw [BitVec.getLsbD_and, Bool.and_comm]
  by_cases hku : k ≤ u
  · rw [foldl_shiftIn_getLsbD b _ (u + 1) k hk (by omega)]
    simp [hku]
  · rw [foldl_shiftIn_getLsbD_of_le b _ (u + 1) k hk (by omega)]
    simp [hku]

/-- The loop emits, for each bit, the parities of the two registers that have absorbed the bits up to it
(44_convolutional.md R262). -/
theorem convRun_outputs (bs : List Bool) (r0 r1 : Word32) (u : Nat) (hu : u < bs.length) :
    (convRun bs r0 r1).1[2 * u]? = some (parity32 ((bs.take (u + 1)).foldl shiftIn r0 &&& poly0)) ∧
    (convRun bs r0 r1).1[2 * u + 1]? = some (parity32 ((bs.take (u + 1)).foldl shiftIn r1 &&& poly1)) := by
  induction bs generalizing r0 r1 u with
  | nil => simp at hu
  | cons b bs ih =>
    cases u with
    | zero => exact ⟨rfl, rfl⟩
    | succ u => exact ih (shiftIn r0 b) (shiftIn r1 b) u (Nat.lt_of_succ_lt_succ hu)

theorem take_convInput (pkt : Vector Byte 11) {u : Nat} (hu : u ≤ 80) :
    (convInput pkt).take (u + 1) = (List.range (u + 1)).map (streamBit pkt) := by
  rw [convInput, ← List.map_take, List.take_range, Nat.min_eq_left (by omega)]

theorem convolve_outputs (pkt : Vector Byte 11) {u : Nat} (hu : u ≤ 80) :
    (convolve pkt).1[2 * u] = tapped poly0 (streamBit pkt) u ∧
    (convolve pkt).1[2 * u + 1] = tapped poly1 (streamBit pkt) u := by
  have hlen : u < (convInput pkt).length := by simp [convInput]; omega
  have hout := convRun_outputs (convInput pkt) 0#32 0#32 u hlen
  rw [take_convInput pkt hu, parity32_foldl_shiftIn, parity32_foldl_shiftIn] at hout
  simp [convolve, hout]

/-! ## The obligations -/

theorem exec_conv (m : BitVec 3) (s : State) : exec (.conv m) s = .next (State.goto
    { s with sBits := (convolve s.pkt).1, reg0 := (convolve s.pkt).2.1, reg1 := (convolve s.pkt).2.2 } phIlv) := rfl

/-- Settles O33: the outputs are the tapped bits and the registers the latest ones. -/
theorem convolutionClosedForm : Obligations.ConvolutionClosedForm := by
  intro m s
  refine ⟨_, exec_conv m s, ⟨fun u hu => ?_, convolve_register_getLsbD s.pkt, (convolve_registers_eq s.pkt).symm⟩,
    rfl, rfl⟩
  obtain ⟨heven, hodd⟩ := convolve_outputs s.pkt hu
  exact ⟨(Vector.getElem?_eq_getElem (by omega)).trans (congrArg some heven),
    (Vector.getElem?_eq_getElem (by omega)).trans (congrArg some hodd)⟩

/-- The packet's first ten bytes and bit 7 of the last hold the 81 bits that CONV reads (44_convolutional.md R263). -/
theorem streamBit_congr {p q : Vector Byte 11} (hbytes : ∀ k : Fin 10, p[k] = q[k])
    (hlast : p[10].getLsbD 7 = q[10].getLsbD 7) {t : Nat} (ht : t ≤ 80) : streamBit p t = streamBit q t := by
  by_cases h80 : t = 80
  · subst h80
    exact hlast
  · have hb : t / 8 < 10 := by omega
    have hbyte : p[t / 8] = q[t / 8] := hbytes ⟨t / 8, hb⟩
    simp [streamBit, show t / 8 < 11 by omega, hbyte]

/-- Settles O34: CONV reads the packet through its 81 input bits only, and those agree. -/
theorem convolutionIgnoresTail : Obligations.ConvolutionIgnoresTail := by
  intro m s s' hbytes hlast
  have hinput : convInput s.pkt = convInput s'.pkt :=
    List.map_congr_left fun t ht => streamBit_congr hbytes hlast (Nat.le_of_lt_succ (List.mem_range.1 ht))
  have hconv : convolve s.pkt = convolve s'.pkt := by rw [convolve, convolve, hinput]
  exact ⟨_, _, exec_conv m s, exec_conv m s', congrArg (·.1) hconv, congrArg (·.2.1) hconv, congrArg (·.2.2) hconv⟩

theorem streamBit_xor {p q r : Vector Byte 11} (h : ∀ k : Fin 11, r[k] = p[k] ^^^ q[k]) {t : Nat} (ht : t ≤ 80) :
    streamBit r t = (streamBit p t ^^ streamBit q t) := by
  have hb : t / 8 < 11 := by omega
  have hbyte : r[t / 8] = p[t / 8] ^^^ q[t / 8] := h ⟨t / 8, hb⟩
  simp [streamBit, hb, hbyte]

theorem tapped_streamBit_xor {p q r : Vector Byte 11} (h : ∀ k : Fin 11, r[k] = p[k] ^^^ q[k]) (poly : Word32)
    {u : Nat} (hu : u ≤ 80) :
    tapped poly (streamBit r) u = (tapped poly (streamBit p) u ^^ tapped poly (streamBit q) u) := by
  rw [← tapped_xor]
  exact tapped_congr poly fun t ht => streamBit_xor h (ht.trans hu)

/-- Settles O35: every output is the tapped bits of one polynomial, and those are linear in the stream. -/
theorem convolutionLinear : Obligations.ConvolutionLinear := by
  intro m a b c hxor
  refine ⟨_, _, _, exec_conv m a, exec_conv m b, exec_conv m c, fun ⟨i, hi⟩ => ?_⟩
  obtain ⟨u, hu, rfl | rfl⟩ : ∃ u, u ≤ 80 ∧ (i = 2 * u ∨ i = 2 * u + 1) := ⟨i / 2, by omega, by omega⟩
  · simpa [(convolve_outputs _ hu).1] using tapped_streamBit_xor hxor poly0 hu
  · simpa [(convolve_outputs _ hu).2] using tapped_streamBit_xor hxor poly1 hu

end Sys2Proof.Machine
end

section
/-! ILV as a permutation of `0..161` (45_interleaver.md R281 to R284): bit reversal is its own inverse, so the accepted
reversals are every position exactly once, and the loop's `i`-th acceptance sends `S[i]` to the `i`-th of them. -/

namespace Sys2Proof.Machine

/-! ## The accepted reversals -/

/-- The 8-bit values are closed under reversal, which is its own inverse (45_interleaver.md R280). -/
theorem rev8_rev8 : ∀ j < 256, rev8 j < 256 ∧ rev8 (rev8 j) = j := by decide +kernel

/-- The positions that ILV's loop fills over the indices `js`, in order (45_interleaver.md R281); over 0..254 they are
`permComputed`. -/
def accepted (js : List Nat) : List Nat := (js.map rev8).filter (· < 162)

theorem accepted_cons_of_lt {j : Nat} (h : rev8 j < 162) (js : List Nat) :
    accepted (j :: js) = rev8 j :: accepted js := by
  simp [accepted, h]

theorem accepted_cons_of_not_lt {j : Nat} (h : ¬ rev8 j < 162) (js : List Nat) : accepted (j :: js) = accepted js := by
  simp [accepted, Nat.le_of_not_lt h]

theorem mem_permComputed {r : Nat} : r ∈ permComputed ↔ r < 162 := by
  simp only [permComputed, List.mem_filter, List.mem_map, List.mem_range, decide_eq_true_eq, and_iff_right_iff_imp]
  exact fun hr => ⟨rev8 r, rev8_covers r hr⟩

theorem permComputed_nodup : permComputed.Nodup := by
  refine (List.nodup_range.map_on fun j hj k hk hjk => ?_).filter _
  rw [List.mem_range] at hj hk
  calc j = rev8 (rev8 j) := (rev8_rev8 j (by omega)).2.symm
    _ = rev8 (rev8 k) := by rw [hjk]
    _ = k := (rev8_rev8 k (by omega)).2

theorem permComputed_perm_range : permComputed.Perm (List.range 162) :=
  (List.perm_ext_iff_of_nodup permComputed_nodup List.nodup_range).2 fun r => by
    rw [mem_permComputed, List.mem_range]

theorem length_permComputed : permComputed.length = 162 := by
  simpa using permComputed_perm_range.length_eq

/-! ## The tables -/

theorem idxOf_permComputed_lt {r : Nat} (hr : r < 162) : permComputed.idxOf r < permComputed.length :=
  List.idxOf_lt_length_of_mem (mem_permComputed.2 hr)

/-- The permutation of the positions that `PERM` and `INV` list (45_interleaver.md R283). -/
def placement : Fin 162 ≃ Fin 162 where
  toFun i := ⟨permComputed.get (i.cast length_permComputed.symm), mem_permComputed.1 (List.get_mem _ _)⟩
  invFun r := ⟨permComputed.idxOf r.val, (idxOf_permComputed_lt r.isLt).trans_eq length_permComputed⟩
  left_inv i := Fin.ext (permComputed_nodup.idxOf_getElem i.val _)
  right_inv r := Fin.ext (List.getElem_idxOf (idxOf_permComputed_lt r.isLt))

theorem permComputed_eq_permTable : permComputed = permTable := by decide +kernel

theorem invComputed_eq_invTable : invComputed = invTable := by decide +kernel

theorem permComputed_getElem? (i : Fin 162) : permComputed[i.val]? = some (placement i).val :=
  List.getElem?_eq_getElem _

theorem permTable_getD (i : Fin 162) (d : Nat) : permTable.getD i.val d = placement i := by
  rw [← permComputed_eq_permTable, List.getD_eq_getElem?_getD, permComputed_getElem?, Option.getD_some]

theorem invTable_getD (r : Fin 162) (d : Nat) : invTable.getD r.val d = placement.symm r := by
  rw [← invComputed_eq_invTable, List.getD_eq_getElem _ _ (by simp [invComputed])]
  simp [invComputed, placement, List.idxOf]

/-! ## The loop -/

theorem ilvLoop_of_not_mem (src : Vector Bool 162) (js : List Nat) (i : Nat) (dst : Vector Bool 162) {r : Nat}
    (hr : r ∉ accepted js) : (ilvLoop src js i dst)[r]? = dst[r]? := by
  induction js generalizing i dst with
  | nil => rfl
  | cons j js ih =>
    rw [ilvLoop]
    split
    next hin =>
      rw [accepted_cons_of_lt hin, List.mem_cons, not_or] at hr
      rw [ih _ _ hr.2, Vector.getElem?_setIfInBounds_ne (Ne.symm hr.1)]
    next hout =>
      rw [accepted_cons_of_not_lt hout] at hr
      exact ih _ _ hr

/-- The `k`-th accepted position gets the bit `k` places after the count the loop began with, and nothing later writes
over it (45_interleaver.md R281). -/
theorem ilvLoop_accepted (src : Vector Bool 162) (js : List Nat) (i : Nat) (dst : Vector Bool 162)
    (hnodup : (accepted js).Nodup) {k r : Nat} (hk : (accepted js)[k]? = some r) :
    (ilvLoop src js i dst)[r]? = some (src[i + k]?.getD false) := by
  induction js generalizing i dst k with
  | nil => simp [accepted] at hk
  | cons j js ih =>
    rw [ilvLoop]
    split
    next hin =>
      rw [accepted_cons_of_lt hin] at hnodup hk
      obtain ⟨hfresh, hrest⟩ := List.nodup_cons.1 hnodup
      cases k with
      | zero =>
        obtain rfl : rev8 j = r := by simpa using hk
        rw [ilvLoop_of_not_mem _ _ _ _ hfresh, Vector.getElem?_setIfInBounds_self_of_lt hin, Nat.add_zero]
      | succ k =>
        rw [ih (i + 1) _ hrest (by simpa using hk), Nat.add_right_comm, Nat.add_assoc]
    next hout =>
      rw [accepted_cons_of_not_lt hout] at hnodup hk
      exact ih i dst hnodup hk

theorem interleave_placement (src old : Vector Bool 162) (i : Fin 162) :
    (interleave src old)[(placement i).val]? = some src[i] := by
  have hplaced := ilvLoop_accepted src (List.range 255) 0 old permComputed_nodup (permComputed_getElem? i)
  rwa [Nat.zero_add, Vector.getElem?_eq_getElem i.isLt, Option.getD_some] at hplaced

/-- What ILV does: `D` receives every bit of `S` at its placement, whatever `D` held, and MERGE is next
(45_interleaver.md R281). -/
theorem exec_ilv (m : BitVec 3) (s : State) : ∃ d : Vector Bool 162,
    (∀ i : Fin 162, d[(placement i).val]? = some s.sBits[i]) ∧
    exec (.ilv m) s = .next { s with dBits := d, phase := phMerge } :=
  ⟨interleave s.sBits s.dBits, interleave_placement s.sBits s.dBits, by simp only [exec, execIlv, State.goto]⟩

/-! ## The obligations -/

/-- Settles O36: `PERM` lists the placement, and the loop follows it. -/
theorem interleaverFollowsTable : Obligations.InterleaverFollowsTable := by
  intro m s
  obtain ⟨d, hplaced, hexec⟩ := exec_ilv m s
  refine ⟨_, hexec, permComputed_eq_permTable, fun i => ?_, rfl, rfl⟩
  rw [permTable_getD]
  exact hplaced i

/-- Settles O60: `INV` lists the placement's inverse. -/
theorem interleaverInverseTable : Obligations.InterleaverInverseTable := by
  refine ⟨permComputed_eq_permTable, invComputed_eq_invTable, fun i => ⟨?_, ?_⟩, fun m s => ?_⟩
  · rw [permTable_getD, invTable_getD, placement.symm_apply_apply]
  · rw [invTable_getD, permTable_getD, placement.apply_symm_apply]
  · obtain ⟨d, hplaced, hexec⟩ := exec_ilv m s
    refine ⟨_, hexec, fun r => ?_⟩
    obtain ⟨i, rfl⟩ := placement.surjective r
    rw [invTable_getD, placement.symm_apply_apply]
    calc s.sBits[i.val]? = some s.sBits[i] := Vector.getElem?_eq_getElem i.isLt
      _ = d[(placement i).val]? := (hplaced i).symm
      _ = some d[placement i] := Vector.getElem?_eq_getElem (placement i).isLt

/-- Reading a vector through a permutation of its indices reorders its list. -/
theorem toList_perm_of_getElem?_equiv {n : Nat} {v w : Vector Bool n} (σ : Fin n ≃ Fin n)
    (h : ∀ i : Fin n, w[(σ i).val]? = some v[i]) : w.toList.Perm v.toList := by
  have htoList (u : Vector Bool n) : u.toList = List.ofFn fun i : Fin n => u[i] := by
    rw [← Vector.toList_ofFn]
    exact congrArg Vector.toList Vector.ofFn_getElem.symm
  have hread : (fun i => v[i]) = (fun i => w[i]) ∘ σ := funext fun i =>
    Option.some.inj ((h i).symm.trans (Vector.getElem?_eq_getElem (σ i).isLt))
  rw [htoList, htoList, hread]
  exact (Equiv.Perm.ofFn_comp_perm σ fun i => w[i]).symm

/-- Settles O37: the placement is a bijection that carries `S` to `D`. -/
theorem interleaverIsPermutation : Obligations.InterleaverIsPermutation := by
  intro m s t hexec
  obtain ⟨d, hplaced, hnext⟩ := exec_ilv m s
  obtain rfl : _ = t := Host.Outcome.next.inj (hnext.symm.trans hexec)
  refine ⟨toList_perm_of_getElem?_equiv placement hplaced, fun r => ?_⟩
  simp only [permTable_getD, Fin.val_inj]
  exact placement.bijective.existsUnique r

/-- The loop accepts as many indices as there are positions (45_interleaver.md R282). -/
theorem length_filter_rev8 : ((List.range 255).filter fun j => rev8 j < 162).length = 162 := by
  have hlength := length_permComputed
  rw [permComputed, List.filter_map, List.length_map] at hlength
  exact hlength

/-- Positions filled one after the other are at least 32 apart (45_interleaver.md R284). -/
theorem permTable_neighbours : ∀ i : Fin 161,
    32 ≤ ((permTable.getD (i.val + 1) 0 : Int) - (permTable.getD i.val 0 : Int)).natAbs := by decide +kernel

/-- Settles O38: the count is the length of the computed `PERM`. -/
theorem bitReversalCounts : Obligations.BitReversalCounts :=
  ⟨fun j => rev8_rev8 j.val j.isLt, length_filter_rev8, rfl, rfl, permTable_neighbours⟩

end Sys2Proof.Machine
end

section
/-! MERGE (46_sync_merger.md R290 to R292): the two bits of a symbol do not overlap, and the synchronization vector is
a list of bits. -/

namespace Sys2Proof.Machine

/-! ## The synchronization vector -/

/-- `SYNC` is a list of bits (46_sync_merger.md R291). -/
theorem syncList_bits : ∀ x ∈ syncList, x = 0 ∨ x = 1 := by decide +kernel

/-- The printed number at a position is the bit MERGE uses there. -/
theorem syncBit_toNat (i : Nat) : (syncBit i).toNat = syncList.getD i 0 := by
  have hbit : syncList.getD i 0 = 0 ∨ syncList.getD i 0 = 1 := by
    rw [List.getD_eq_getElem?_getD]
    cases h : syncList[i]? with
    | none => exact .inl rfl
    | some x => exact syncList_bits x (List.mem_of_getElem? h)
  rw [syncBit]
  rcases hbit with h | h <;> rw [h] <;> rfl

/-- In a list of bits every element that is no one is a zero. -/
theorem count_zero_add_count_one {l : List Nat} (h : ∀ x ∈ l, x = 0 ∨ x = 1) :
    l.count 0 + l.count 1 = l.length := by
  induction l with
  | nil => rfl
  | cons x l ih =>
    obtain ⟨hx, hl⟩ := List.forall_mem_cons.1 h
    have hrest := ih hl
    rcases hx with rfl | rfl <;> simp <;> omega

theorem length_syncList : syncList.length = 162 := by decide +kernel

theorem count_one_syncList : syncList.count 1 = 63 := by decide +kernel

/-- Settles O40: the zeros are the elements that are no ones. -/
theorem syncVectorChecks : Obligations.SyncVectorChecks := by
  have hcount := count_zero_add_count_one syncList_bits
  rw [length_syncList, count_one_syncList] at hcount
  exact ⟨length_syncList, count_one_syncList, Nat.add_right_cancel hcount, rfl⟩

/-! ## The symbols -/

/-- No carry can occur in the sum of two bits at different places (46_sync_merger.md R290). -/
theorem mergeSymbol_toNat (sync data : Bool) : (mergeSymbol sync data).toNat = sync.toNat + 2 * data.toNat := by
  cases sync <;> cases data <;> rfl

theorem mergeSymbols_getElem_toNat (d : Vector Bool 162) (i : Fin 162) :
    (mergeSymbols d)[i].toNat = syncList.getD i.val 0 + 2 * d[i].toNat := by
  rw [← syncBit_toNat, ← mergeSymbol_toNat]
  simp [mergeSymbols]

/-- What MERGE does: symbols, `DONE` and `PHASE` in one step (46_sync_merger.md R292). -/
theorem exec_merge (m : BitVec 3) (s : State) :
    exec (.merge m) s = .next { s with sym := mergeSymbols s.dBits, done := true, phase := phIdle } := rfl

/-- Settles O39: the symbol is a sum of two bits, and its remainder and half take it apart again. -/
theorem mergePublishesSymbols : Obligations.MergePublishesSymbols := by
  intro m s
  refine ⟨_, exec_merge m s, fun i => ?_, rfl, rfl, rfl⟩
  have hsum := mergeSymbols_getElem_toNat s.dBits i
  have hsync : syncList.getD i.val 0 ≤ 1 := (syncBit_toNat i.val).symm.trans_le (Bool.toNat_le _)
  exact ⟨hsum, by rw [hsum]; omega, by rw [hsum]; omega⟩

end Sys2Proof.Machine
end

section
/-! The error `E_T3_NO_CLOSE`: what its raise leaves, that only CLASS raises it, and its cause on the inputs
(60_exceptions.md R301 to R303). -/

namespace Sys2Proof.Machine

/-! ## The cause and the raise -/

/-- The cause of the error as CLASS tests it, by its two searches (60_exceptions.md R301). -/
def unclosedBracket (call : Vector Byte 12) : Prop := opensBracket call = true ∧ closeIndex call = none

theorem unclosedBracket_iff (call : Vector Byte 12) :
    unclosedBracket call ↔ call[0] = 0x3C#8 ∧ lacks call 1 0x3E#8 :=
  and_congr (opensBracket_iff call) (closeIndex_eq_none_iff call)

/-- NORM neither makes nor removes the cause (60_exceptions.md R302). -/
theorem unclosedBracket_normCall (raw : Vector Byte 12) : unclosedBracket (normCall raw) ↔ unclosedBracket raw := by
  simp only [unclosedBracket, opensBracket_normCall, closeIndex_normCall]

/-- The byte of `STATUS` after the raise (60_exceptions.md R303). -/
theorem State.status_raiseNoClose {s : State} (hdone : s.done = false) : s.raiseNoClose.status = 0x14#8 := by
  have hbusy : s.raiseNoClose.busy = false := s.raiseNoClose.busy_eq_false_iff.mpr rfl
  rw [State.status, hbusy, State.raiseNoClose_errcode, State.raiseNoClose_err, State.raiseNoClose_done, hdone]
  rfl

/-- Settles O16: CLASS on an unclosed bracket is the raise with the type T3. -/
theorem errorEntry : Obligations.ErrorEntry := by
  intro m s hdone hopen hlacks
  obtain ⟨hopens, hclose⟩ := (unclosedBracket_iff s.call).mpr ⟨hopen, hlacks⟩
  exact ⟨_, exec_classify_unclosed m hopens hclose, State.status_raiseNoClose hdone, hdone, rfl, rfl, rfl⟩

/-! ## Who raises it -/

/-- An operation that takes `ERR` from 0 to 1 is CLASS on an unclosed bracket, and its effect is the raise
(60_exceptions.md R301): every other effect keeps `ERR` or clears it. -/
theorem exec_raises {i : Instr} {s t : State} (h : exec i s = .next t) (hraised : t.err = true)
    (hclear : s.err = false) :
    (∃ m, i = .classify m) ∧ unclosedBracket s.call ∧ t = State.raiseNoClose { s with mtype := mtT3 } := by
  have hmoved : t.err ≠ s.err := by rw [hraised, hclear]; decide
  cases exec_effect h with
  | classUnclosed m hopen hclose => exact ⟨⟨m, rfl⟩, ⟨hopen, hclose⟩, rfl⟩
  | start | reset => cases hraised
  | norm | classBracketed | classPlain | hash | field | packb | conv | ilv | merge => exact absurd rfl hmoved
  | wrCallIn | wrLocIn | wrPwrIn | passive => exact absurd rfl hmoved

/-- Settles O17: the one raising effect carries its cause and its code. -/
theorem errorOnlyFromClass : Obligations.ErrorOnlyFromClass := by
  intro i s t h hraised hclear
  obtain ⟨hclass, hcause, rfl⟩ := exec_raises h hraised hclear
  obtain ⟨hopen, hlacks⟩ := (unclosedBracket_iff s.call).mp hcause
  exact ⟨hclass, hopen, hlacks, rfl⟩

/-! ## The cause on the inputs -/

/-- With `ERR` clear, CLASS raises the error exactly on an unclosed bracket (60_exceptions.md R301). -/
theorem classify_err_iff {m : BitVec 3} {s t : State} (h : exec (.classify m) s = .next t) (hclear : s.err = false) :
    t.err = true ↔ unclosedBracket s.call := by
  constructor
  · intro hraised
    obtain ⟨-, hcause, -⟩ := exec_raises h hraised hclear
    exact hcause
  · rintro ⟨hopen, hclose⟩
    rw [exec_classify_unclosed m hopen hclose] at h
    cases h
    rfl

/-- What NORM does with the callsign and the two flags. -/
theorem norm_call_flags {m : BitVec 3} {s t : State} (h : exec (.norm m) s = .next t) :
    t.call = normCall s.call ∧ t.done = s.done ∧ t.err = s.err := by
  cases h
  exact ⟨rfl, rfl, rfl⟩

/-- Settles O18: START latches the inputs with clear flags, NORM keeps the cause, and CLASS decides by it. -/
theorem errorCauseOnInput : Obligations.ErrorCauseOnInput := by
  intro x m m' s hidle
  obtain ⟨b, hnorm⟩ := exec_isNext (.norm m) s.started
  obtain ⟨c, hclass⟩ := exec_isNext (.classify m') b
  obtain ⟨hcall, hdone, hclear⟩ := norm_call_flags hnorm
  refine ⟨s.started, b, c, exec_start_of_idle hidle x, hnorm, hclass, ?_, fun hraised => ?_⟩
  · calc c.err = true
        ↔ unclosedBracket b.call := classify_err_iff hclass hclear
      _ ↔ unclosedBracket (normCall s.callIn) := by rw [hcall]; rfl
      _ ↔ unclosedBracket s.callIn := unclosedBracket_normCall s.callIn
      _ ↔ _ := unclosedBracket_iff s.callIn
  · obtain ⟨-, -, rfl⟩ := exec_raises hclass hraised hclear
    exact State.status_raiseNoClose hdone

end Sys2Proof.Machine
end

section
/-! The block between encodes and under one: at IDLE only reset and START touch the registers of the encode, and while
busy no host access does (70_reset_and_hazards.md R336 to R338). -/

namespace Sys2Proof.Machine

/-! ## At IDLE -/

/-- At most one of `BUSY` and `DONE` is 1 (10_state.md R33). -/
theorem State.Inv.phase_eq_phIdle_of_done {s : State} (hs : s.Inv) (hdone : s.done = true) : s.phase = phIdle := by
  by_contra hbusy
  obtain ⟨hclear, -⟩ := hs.flagsClear_of_busy hbusy
  exact nomatch hclear.symm.trans hdone

/-- IDLE is the phase of no sequencer operation (40_encode_sequence.md R131). -/
theorem phaseCode_ne_phIdle (i : Instr) : i.phaseCode ≠ some phIdle := by
  cases i <;> simp [Instr.phaseCode] <;> decide

theorem State.Selects.phaseCode_eq_none {s : State} {i : Instr} (h : s.Selects i) (hidle : s.phase = phIdle) :
    i.phaseCode = none := by
  obtain hcode | ⟨w, -, rfl⟩ | ⟨-, rfl⟩ := h
  · rw [hidle] at hcode; exact absurd hcode (phaseCode_ne_phIdle i)
  · exact decodeAccess_phaseCode w
  · rfl

/-- A step at IDLE is reset, an accepted START, or one that leaves the encode alone. -/
theorem step_cases_of_idle {s t : State} (hidle : s.phase = phIdle) (h : step s = .next t) :
    (s.agenda.head? = some .reset ∧ t.done = false) ∨
    ((∃ w x, s.agenda.head? = some (.host w) ∧ decodeAccess w = .start x) ∧ t = s.endTurn.started) ∨
    s.sameEncode t := by
  obtain rfl | ⟨i, hselects, hexec⟩ := step_runs h
  · exact .inr (.inr s.endTurn_sameEncode)
  by_cases hreset : i = .reset
  · subst hreset
    cases hexec
    exact .inl ⟨hselects.reset, rfl⟩
  by_cases hstart : ∃ x, i = .start x
  · obtain ⟨x, rfl⟩ := hstart
    cases (exec_start_of_idle (s := s.endTurn) hidle x).symm.trans hexec
    exact .inr (.inl ⟨hselects.start, rfl⟩)
  · have hsame : s.endTurn.sameEncode t :=
      exec_sameEncode (hselects.phaseCode_eq_none hidle) (not_exists.mp hstart) hreset hexec
    exact .inr (.inr hsame)

/-- Settles O53: `DONE = 1` is a state at IDLE; reset and START clear `DONE`, and any other step leaves `SYM` with the
rest of the encode. -/
theorem symbolsStayWhileDone : Obligations.SymbolsStayWhileDone := by
  intro s t hs hdone h
  have hidle := hs.phase_eq_phIdle_of_done hdone
  obtain ⟨hreset, hclear⟩ | ⟨⟨w, x, hhead, hw⟩, rfl⟩ | hsame := step_cases_of_idle hidle h
  · exact ⟨fun hkept => (nomatch hclear.symm.trans hkept), fun _ => .inl hreset⟩
  · exact ⟨nofun, fun _ => .inr ⟨w, x, hhead, hw, rfl⟩⟩
  · obtain ⟨-, -, -, -, -, hkept, -, -, -, -, -, -, -, -, -, -, -, -, -, hsym⟩ := hsame
    exact ⟨fun _ => hsym.symm, fun hlost => nomatch (hdone.symm.trans hkept).trans hlost⟩

/-! ## While busy -/

/-- A host turn runs the operation of its word (30_encoding.md R106). -/
theorem step_host {s : State} {w : Hacc} {rest : List Turn} (hagenda : s.agenda = .host w :: rest) :
    step s = exec (decodeAccess w) s.endTurn := by
  simp only [step, State.fetch, hagenda, decodeWord]

/-- While busy START is ignored (70_reset_and_hazards.md R336), and no other host operation touches the encode. -/
theorem exec_host_sameEncode_of_busy {s t : State} (hbusy : s.phase ≠ phIdle) {w : Hacc}
    (h : exec (decodeAccess w) s = .next t) : s.sameEncode t := by
  by_cases hstart : ∃ x, decodeAccess w = .start x
  · obtain ⟨x, hx⟩ := hstart
    rw [hx, exec_start_of_busy hbusy] at h
    cases h
    simp [State.sameEncode]
  · exact exec_sameEncode (decodeAccess_phaseCode w) (not_exists.mp hstart) (decodeAccess_ne_reset w) h

/-- Settles O54: every operation completes, and ending the turn touches no register. -/
theorem hostCannotTouchEncode : Obligations.HostCannotTouchEncode := by
  intro s w rest hagenda hbusy
  obtain ⟨t, ht⟩ := exec_isNext (decodeAccess w) s.endTurn
  have hstep : step s = .next t := (step_host hagenda).trans ht
  have hsame : s.endTurn.sameEncode t := exec_host_sameEncode_of_busy (s := s.endTurn) hbusy ht
  refine ⟨t, hstep, hsame, ?_⟩
  rw [step_agenda hstep, hagenda, List.tail_cons]

end Sys2Proof.Machine
end

section
/-! Decoder and encoder undo each other (30_encoding.md R105 to R107): first between operations and words, row by row,
then between words and bytes. -/

namespace Sys2Proof

/-! ## Register numbers with an index -/

theorem toNat_append_eq_add {n k : Nat} (x : BitVec n) (y : BitVec k) :
    (x ++ y).toNat = 2 ^ k * x.toNat + y.toNat := by
  rw [BitVec.toNat_append, Nat.shiftLeft_eq, Nat.mul_comm, Nat.two_pow_add_eq_or_of_lt y.isLt]

/-- The register number of `CALL_IN[i]` (20_memory.md R74). -/
theorem callInNum_toNat (i : BitVec 4) : (0b00000#5 ++ i).toNat = i.toNat := by
  rw [toNat_append_eq_add]; simp

/-- The register number of `LOC_IN[i]` (20_memory.md R74). -/
theorem locInNum_toNat (i : BitVec 3) : (0b000010#6 ++ i).toNat = 0x010 + i.toNat := by
  rw [toNat_append_eq_add]; rfl

/-- The register number of `SYM[i]` (20_memory.md R74). -/
theorem symNum_toNat (i : BitVec 8) : (1#1 ++ i).toNat = 0x100 + i.toNat := by
  rw [toNat_append_eq_add]; rfl

theorem callInNum_extractLsb' {a : RegNum} (h : a.toNat ≤ 0x00B) : 0b00000#5 ++ a.extractLsb' 0 4 = a := by
  apply BitVec.eq_of_toNat_eq
  rw [callInNum_toNat, BitVec.extractLsb'_toNat]
  omega

theorem locInNum_extractLsb' {a : RegNum} (h : 0x010 ≤ a.toNat ∧ a.toNat ≤ 0x015) :
    0b000010#6 ++ a.extractLsb' 0 3 = a := by
  apply BitVec.eq_of_toNat_eq
  rw [locInNum_toNat, BitVec.extractLsb'_toNat]
  omega

theorem symNum_extractLsb' {a : RegNum} (h : 0x100 ≤ a.toNat) : 1#1 ++ a.extractLsb' 0 8 = a := by
  apply BitVec.eq_of_toNat_eq
  rw [symNum_toNat, BitVec.extractLsb'_toNat]
  omega

/-- A byte written to `CTRL` is its bits 7:1 and its bit 0 (10_state.md R35). -/
theorem ctrlByte_fields (v : Byte) : v.extractLsb' 1 7 ++ BitVec.ofBool (v.getLsbD 0) = v := by
  apply BitVec.eq_of_getLsbD_eq
  intro j hj
  rw [BitVec.getLsbD_append]
  cases j with
  | zero => cases v.getLsbD 0 <;> rfl
  | succ j => simp [show j < 7 by omega, Nat.add_comm 1 j]

/-! ## Words to operations and back -/

/-- Operation `i` is a row of the table with the word `w` (30_encoding.md R107). -/
def OpWord.IsWordOf (w : OpWord) (i : Instr) : Prop := i.wellFormed = true ∧ encodeWord i = w

theorem decodeWrite_isWordOf (a : RegNum) (v : Byte) :
    (OpWord.access (accessWord true a v)).IsWordOf (decodeWrite a v) := by
  rw [decodeWrite]
  split_ifs with hcall hloc hpwr hctrl hbit
  · exact ⟨by simp [Instr.wellFormed]; omega, by rw [encodeWord, callInNum_extractLsb' hcall]⟩
  · exact ⟨by simp [Instr.wellFormed]; omega, by rw [encodeWord, locInNum_extractLsb' hloc]⟩
  · obtain rfl : a = 0x018#9 := BitVec.eq_of_toNat_eq hpwr
    exact ⟨rfl, rfl⟩
  · obtain rfl : a = 0x019#9 := BitVec.eq_of_toNat_eq hctrl
    refine ⟨rfl, ?_⟩
    conv => rhs; rw [← ctrlByte_fields v, hbit]
    rfl
  · obtain rfl : a = 0x019#9 := BitVec.eq_of_toNat_eq hctrl
    refine ⟨rfl, ?_⟩
    conv => rhs; rw [← ctrlByte_fields v, Bool.eq_false_of_not_eq_true hbit]
    rfl
  · exact ⟨by simp [Instr.wellFormed, isIgnoredNum, isReservedNum]; omega, rfl⟩

theorem decodeRead_isWordOf (a : RegNum) (x : Byte) :
    (OpWord.access (accessWord false a x)).IsWordOf (decodeRead a x) := by
  rw [decodeRead]
  split_ifs with hcall hloc hpwr hctrl hstatus hsym
  · exact ⟨by simp [Instr.wellFormed]; omega, by rw [encodeWord, callInNum_extractLsb' hcall]⟩
  · exact ⟨by simp [Instr.wellFormed]; omega, by rw [encodeWord, locInNum_extractLsb' hloc]⟩
  · obtain rfl : a = 0x018#9 := BitVec.eq_of_toNat_eq hpwr
    exact ⟨rfl, rfl⟩
  · obtain rfl : a = 0x019#9 := BitVec.eq_of_toNat_eq hctrl
    exact ⟨rfl, rfl⟩
  · obtain rfl : a = 0x01A#9 := BitVec.eq_of_toNat_eq hstatus
    exact ⟨rfl, rfl⟩
  · exact ⟨by simp [Instr.wellFormed]; omega, by rw [encodeWord, symNum_extractLsb' hsym.1]⟩
  · exact ⟨by simp [Instr.wellFormed, isReservedNum]; omega, rfl⟩

theorem decodeAccess_isWordOf (w : Hacc) : (OpWord.access w).IsWordOf (decodeAccess w) := by
  rw [← accessWord_fields w]
  cases weField w with
  | true => rw [decodeAccess_write]; exact decodeWrite_isWordOf _ _
  | false => rw [decodeAccess_read]; exact decodeRead_isWordOf _ _

/-- No operation has a reserved `MTYPE` code (30_encoding.md R112; log 5). -/
theorem validMtype_of_decodeSelect {w : OpSel} {i : Instr} (h : decodeSelect w = .ok i) :
    validMtype (mtypeField w) = true := by
  by_contra hm
  simp only [decodeSelect, Bool.eq_false_of_not_eq_true hm, if_true] at h
  split_ifs at h

theorem decodeSelect_isWordOf {w : OpSel} {i : Instr} (h : decodeSelect w = .ok i) : (OpWord.select w).IsWordOf i := by
  have hm := validMtype_of_decodeSelect h
  rw [← select_fields w]
  rcases Machine.decodeSelect_cases h with
    ⟨hp, rfl⟩ | ⟨hp, rfl⟩ | ⟨hp, hq, rfl⟩ | ⟨hp, hq, rfl⟩ | ⟨hp, hq, rfl⟩ | ⟨hp, hq, rfl⟩ | ⟨hp, hq, rfl⟩ |
    ⟨hp, hq, rfl⟩ | ⟨hp, rfl⟩ | ⟨hp, rfl⟩ | ⟨hp, rfl⟩ | ⟨hp, rfl⟩ <;> rw [hp]
  -- NORM and CLASS; HASH and FIELD, which fix the type; PACKB to MERGE
  iterate 2 exact ⟨hm, rfl⟩
  iterate 6 rw [hq]; exact ⟨rfl, rfl⟩
  iterate 4 exact ⟨hm, rfl⟩

theorem decodeWord_isWordOf {w : OpWord} {i : Instr} (h : decodeWord w = .ok i) : w.IsWordOf i := by
  cases w with
  | resetInput => cases h; exact ⟨rfl, rfl⟩
  | select w => exact decodeSelect_isWordOf h
  | access w => cases h; exact decodeAccess_isWordOf w

/-! ## Operations to words and back -/

theorem decodeWrite_callInNum {i : BitVec 4} (hi : i.toNat ≤ 11) (v : Byte) :
    decodeWrite (0b00000#5 ++ i) v = .wrCallIn i v := by
  rw [decodeWrite, callInNum_toNat, if_pos hi, BitVec.extractLsb'_append_eq_right]

theorem decodeWrite_locInNum {i : BitVec 3} (hi : i.toNat ≤ 5) (v : Byte) :
    decodeWrite (0b000010#6 ++ i) v = .wrLocIn i v := by
  rw [decodeWrite, locInNum_toNat, if_neg (by omega), if_pos (by omega), BitVec.extractLsb'_append_eq_right]

theorem decodeWrite_ctrl (x : BitVec 7) (b : Bool) :
    decodeWrite 0x019#9 (x ++ BitVec.ofBool b) = if b then .start x else .wrCtrlNop x := by
  have hbit : (x ++ BitVec.ofBool b).getLsbD 0 = b := by rw [BitVec.getLsbD_append]; cases b <;> rfl
  have hrest : (x ++ BitVec.ofBool b).extractLsb' 1 7 = x := BitVec.extractLsb'_append_eq_left
  rw [decodeWrite, hbit, hrest]
  rfl

theorem decodeWrite_ignored {a : RegNum} (ha : isIgnoredNum a = true) (v : Byte) :
    decodeWrite a v = .wrIgnored a v := by
  simp only [isIgnoredNum, isReservedNum, Bool.or_eq_true, decide_eq_true_eq] at ha
  rw [decodeWrite, if_neg (by omega), if_neg (by omega), if_neg (by omega), if_neg (by omega)]

theorem decodeRead_callInNum {i : BitVec 4} (hi : i.toNat ≤ 11) (x : Byte) :
    decodeRead (0b00000#5 ++ i) x = .rdCallIn i x := by
  rw [decodeRead, callInNum_toNat, if_pos hi, BitVec.extractLsb'_append_eq_right]

theorem decodeRead_locInNum {i : BitVec 3} (hi : i.toNat ≤ 5) (x : Byte) :
    decodeRead (0b000010#6 ++ i) x = .rdLocIn i x := by
  rw [decodeRead, locInNum_toNat, if_neg (by omega), if_pos (by omega), BitVec.extractLsb'_append_eq_right]

theorem decodeRead_symNum {i : BitVec 8} (hi : i.toNat ≤ 161) (x : Byte) : decodeRead (1#1 ++ i) x = .rdSym i x := by
  rw [decodeRead, symNum_toNat, if_neg (by omega), if_neg (by omega), if_neg (by omega), if_neg (by omega),
    if_neg (by omega), if_pos (by omega), BitVec.extractLsb'_append_eq_right]

theorem decodeRead_reserved {a : RegNum} (ha : isReservedNum a = true) (x : Byte) :
    decodeRead a x = .rdReserved a x := by
  simp only [isReservedNum, decide_eq_true_eq] at ha
  rw [decodeRead, if_neg (by omega), if_neg (by omega), if_neg (by omega), if_neg (by omega), if_neg (by omega),
    if_neg (by omega)]

theorem decodeWord_encodeWord {i : Instr} (hi : i.wellFormed = true) : decodeWord (encodeWord i) = .ok i := by
  cases i with
  | norm m | classify m | packb m | conv m | ilv m | merge m =>
    have hm : validMtype m = true := hi
    simp [encodeWord, decodeWord, decodeSelect, hm]
  | hash | fieldT1 | fieldT2S1 | fieldT2S2 | fieldT2P | fieldT3 => rfl
  | wrCallIn i v =>
    rw [encodeWord, decodeWord, decodeAccess_write, decodeWrite_callInNum (of_decide_eq_true hi)]
  | wrLocIn i v =>
    rw [encodeWord, decodeWord, decodeAccess_write, decodeWrite_locInNum (of_decide_eq_true hi)]
  | wrPwrIn v => rw [encodeWord, decodeWord, decodeAccess_write]; rfl
  | start x => exact congrArg Except.ok ((decodeAccess_write _ _).trans (decodeWrite_ctrl x true))
  | wrCtrlNop x => exact congrArg Except.ok ((decodeAccess_write _ _).trans (decodeWrite_ctrl x false))
  | rdCallIn i x =>
    rw [encodeWord, decodeWord, decodeAccess_read, decodeRead_callInNum (of_decide_eq_true hi)]
  | rdLocIn i x =>
    rw [encodeWord, decodeWord, decodeAccess_read, decodeRead_locInNum (of_decide_eq_true hi)]
  | rdPwrIn x | rdCtrl x | rdStatus x => rw [encodeWord, decodeWord, decodeAccess_read]; rfl
  | rdSym i x => rw [encodeWord, decodeWord, decodeAccess_read, decodeRead_symNum (of_decide_eq_true hi)]
  | wrIgnored a x => rw [encodeWord, decodeWord, decodeAccess_write, decodeWrite_ignored hi]
  | rdReserved a x => rw [encodeWord, decodeWord, decodeAccess_read, decodeRead_reserved hi]
  | reset => rfl

/-- Settles O1: the bytes give the word back, and the word the operation. -/
theorem decodeEncodeAgree : Obligations.DecodeEncodeAgree := by
  intro i hi
  rw [decode, encode, wordOfBytes_bytesOfWord]
  exact decodeWord_encodeWord hi

/-! ## Bytes to words and back (log 3) -/

theorem bytesOfWord_select {b : Byte} (h : b.getLsbD 7 = false) : bytesOfWord (.select (b.extractLsb' 0 7)) = [b] := by
  have hlow : (b.extractLsb' 0 7).setWidth 8 = b := by
    apply BitVec.eq_of_getLsbD_eq
    intro j hj
    rcases (show j < 7 ∨ j = 7 by omega) with hlt | rfl
    · simp [hlt, hj]
    · simpa using h
  rw [bytesOfWord, hlow]

theorem bytesOfWord_access (b0 b1 : Byte) {b2 : Byte} (h : (b2.extractLsb' 2 6).toNat = 0) :
    bytesOfWord (.access (b2.extractLsb' 0 2 ++ b1 ++ b0)) = [b0, b1, b2] := by
  have hword : (b2.extractLsb' 0 2 ++ b1 ++ b0).toNat = 65536 * b2.toNat + 256 * b1.toNat + b0.toNat := by
    rw [BitVec.extractLsb'_toNat] at h
    rw [toNat_append_eq_add, toNat_append_eq_add, BitVec.extractLsb'_toNat]
    omega
  rw [bytesOfWord]
  refine congrArg₂ _ ?_ (congrArg₂ _ ?_ (congrArg₂ _ ?_ rfl)) <;> apply BitVec.eq_of_toNat_eq
  · rw [BitVec.extractLsb'_toNat, hword]; omega
  · rw [BitVec.extractLsb'_toNat, hword]; omega
  · rw [BitVec.toNat_setWidth, BitVec.extractLsb'_toNat, hword]; omega

/-- Bytes that make a word are the word's bytes. -/
theorem bytesOfWord_of_wordOfBytes {bs : List Byte} {w : OpWord} (h : wordOfBytes bs = .ok w) : bytesOfWord w = bs := by
  match bs with
  | [] => cases h; rfl
  | [b] =>
    rw [wordOfBytes] at h
    split_ifs at h with htop
    cases h
    exact bytesOfWord_select (Bool.eq_false_of_not_eq_true htop)
  | [b0, b1, b2] =>
    rw [wordOfBytes] at h
    split_ifs at h with htop
    cases h
    exact bytesOfWord_access b0 b1 htop
  | [_, _] | _ :: _ :: _ :: _ :: _ => cases h

/-- Settles O2: the word the bytes make has the operation as its row, and the bytes as its bytes. -/
theorem encodeDecodeAgree : Obligations.EncodeDecodeAgree := by
  intro bs i h
  rw [decode] at h
  split at h
  · next w hw =>
    obtain ⟨hwellFormed, hword⟩ := decodeWord_isWordOf h
    exact ⟨hwellFormed, by rw [encode, hword, bytesOfWord_of_wordOfBytes hw]⟩
  · cases h

/-- Settles O3: each equation is the decoder's evaluation on the word written out. -/
theorem sampleWordsDecode : Obligations.SampleWordsDecode := by
  unfold Obligations.SampleWordsDecode
  decide

end Sys2Proof
end

section
/-! Which operation a turn runs (40_encode_sequence.md R131), and the sequencer turns at which there is none
(30_encoding.md R112). -/

namespace Sys2Proof.Machine

/-- The reset input's turn runs RESET (70_reset_and_hazards.md R330). -/
theorem step_reset {s : State} {rest : List Turn} (hagenda : s.agenda = .reset :: rest) :
    step s = exec .reset s.endTurn := by
  simp only [step, State.fetch, hagenda, decodeWord]

theorem State.endTurn_of_cons {s : State} {u : Turn} {rest : List Turn} (hagenda : s.agenda = u :: rest) :
    s.endTurn = { s with agenda := rest } := by
  rw [State.endTurn, hagenda, List.tail_cons]

/-- Settles O4: the turn at hand is the host's, reset, or the sequencer's while busy and while idle. -/
theorem stepRunsDecoded : Obligations.StepRunsDecoded := by
  intro s
  refine ⟨fun w rest hagenda => ?_, fun rest hagenda => ?_, fun i hs hphase hi => ?_, fun hs hidle => ?_⟩
  · rw [step_host hagenda, State.endTurn_of_cons hagenda]
  · rw [step_reset hagenda, State.endTurn_of_cons hagenda]
  · exact step_select hs hphase hi
  · exact step_idle hs hidle

/-- The reserved select words beside those of IDLE (30_encoding.md R112; log 5). -/
def reservedSelect (p : BitVec 4) (m : BitVec 3) : Prop :=
  9 ≤ p.toNat ∨ (p ≠ phIdle ∧ 6 ≤ m.toNat) ∨ (p = phHash ∧ m ≠ mtT3) ∨ (p = phField ∧ m = mtNone)

/-- Away from IDLE the words without an operation are the reserved ones, over all 128 words. -/
theorem decodeSelect_toOption_eq_none_iff (p : BitVec 4) (m : BitVec 3) :
    p ≠ phIdle ∧ (decodeSelect (p ++ m)).toOption = none ↔ reservedSelect p m := by
  unfold reservedSelect
  decide +revert

/-- A sequencer turn stops the machine exactly when there is a select word and it has no operation. -/
theorem step_fault_iff {s : State} (hs : s.AtSequencer) :
    (∃ r, step s = .fault r) ↔ s.phase ≠ phIdle ∧ (decodeSelect s.opsel).toOption = none := by
  by_cases hidle : s.phase = phIdle
  · simp [step_idle hs hidle, hidle]
  cases hi : decodeSelect s.opsel with
  | ok i =>
    obtain ⟨t, ht⟩ := exec_isNext i s.endTurn
    simp [step_select hs hidle hi, ht, Except.toOption]
  | error e =>
    have hbusy := s.busy_eq_true_iff.mpr hidle
    simp [step, hs.fetch, State.sequencerWord, hbusy, decodeWord, hi, hidle, Except.toOption]

/-- Settles O5: a turn with a word of the table completes, whatever the operation. -/
theorem stuckExactlyAtReserved : Obligations.StuckExactlyAtReserved :=
  fun s hs => (step_fault_iff hs).trans (decodeSelect_toOption_eq_none_iff s.phase s.mtype)

/-- Settles O6: reset leaves itself, with its own turns, byte and count. -/
theorem resetMeetsInvariant : Obligations.ResetMeetsInvariant := State.Inv.reset State.reset

end Sys2Proof.Machine
end

section
/-! HASH with and without a closing bracket (42_hasher.md R194 to R197), and the FIELD.T2 operations without a slash
(43_packer.md R214). -/

namespace Sys2Proof.Machine

/-! ## HASH -/

/-- The key of HASH is the text between the brackets (42_hasher.md R197). -/
theorem hashKey_eq_map {g : Nat} (hg : g ≤ 12) (call : Vector Byte 12) :
    hashKey call g = (List.range (g - 1)).map fun k => extChar call (1 + k) := by
  have hlen : (hashKey call g).length = g - 1 := by simp [hashKey]; omega
  refine List.ext_getElem (by simpa using hlen) fun k hk hk' => ?_
  rw [List.getElem_map, List.getElem_range, extChar_of_lt _ _ (by omega)]
  simp [hashKey, Nat.add_comm 1 k]

/-- The three accumulators after HASH (42_hasher.md R197): the start value for the empty key, the results of `final` for
any other. -/
theorem hashRegs_eq (key : List Byte) :
    hashRegs key =
      if key.length = 0 then (0xdeadbf81#32, 0xdeadbf81#32, 0xdeadbf81#32)
      else
        hashFinal (0xdeadbf81#32 + BitVec.ofNat 32 key.length + keyWord key 0)
          (0xdeadbf81#32 + BitVec.ofNat 32 key.length + keyWord key 4)
          (0xdeadbf81#32 + BitVec.ofNat 32 key.length + keyWord key 8) := by
  have hinit : hashInit + BitVec.ofNat 32 key.length + hashSeed = 0xdeadbf81#32 + BitVec.ofNat 32 key.length := by
    rw [BitVec.add_assoc, BitVec.add_comm _ hashSeed, ← BitVec.add_assoc]; rfl
  cases key with
  | nil => rfl
  | cons b bs => simp only [hashRegs, hinit]; rfl

/-- Settles O19: a key of at most twelve bytes goes through `final` only, so HASH and HASHLITTLE agree. -/
theorem hashIsHashlittle : Obligations.HashIsHashlittle := by
  intro s g hg
  obtain ⟨hlow, hhigh, -⟩ := id hg
  have hkey := hashKey_eq_map (show g ≤ 12 by omega) s.call
  have hlen : (hashKey s.call g).length = g - 1 := by rw [hkey, List.length_map, List.length_range]
  refine ⟨_, exec_hash ((closeIndex_eq_some_iff _ _).mpr hg), ?_, rfl, rfl, rfl⟩
  simp only [State.goto_ha, State.goto_hb, State.goto_hc, State.writeHash_ha, State.writeHash_hb, State.writeHash_hc,
    ← hkey]
  refine ⟨(hashlittle_eq_hashRegs (hashKey_length_le _ _)).symm, fun hempty => ?_, fun hne => ?_⟩
  · rw [hashRegs_eq, hlen, if_pos (by omega)]
    exact ⟨rfl, rfl, rfl⟩
  · rw [hashRegs_eq, hlen, if_neg (by omega)]

/-- Settles O20: each value is HASHLITTLE's evaluation on the key written out. -/
theorem hashlittleSelfTest : Obligations.HashlittleSelfTest := by
  unfold Obligations.HashlittleSelfTest
  decide

/-- HASH without a closing bracket takes the next three free values (log 11). -/
theorem exec_hash_unclosed {s : State} (hclose : closeIndex s.call = none) :
    exec .hash s = .next ((State.writeHash { s with freeCount := s.freeCount + 3 }
      (Config.freeWord s.freeCount, Config.freeWord (s.freeCount + 1), Config.freeWord (s.freeCount + 2))).goto
        phField) := by
  simp only [exec, execHash, hclose]
  rfl

/-- Settles O21: whatever the accumulators, HASH writes them and `HASH15` and nothing else of the block. -/
theorem hashWithoutBracketCompletes : Obligations.HashWithoutBracketCompletes :=
  fun s hlacks => ⟨_, exec_hash_unclosed ((closeIndex_eq_none_iff s.call).mpr hlacks), rfl, rfl, rfl⟩

/-! ## FIELD.T2 -/

/-- A FIELD operation completes at PACKB with its two registers written, whatever slash index it takes
(43_packer.md R210). -/
theorem exec_field_frame {i : Instr} (hi : i.IsField) (s : State) :
    ∃ t, exec i s = .next t ∧ t.phase = phPackb ∧
      t = { s with nReg := t.nReg, mReg := t.mReg, phase := t.phase, freeCount := t.freeCount } := by
  obtain ⟨t, ht⟩ := exec_isNext i s
  have hcode := hi.phaseCode
  refine ⟨t, ht, ?_⟩
  cases exec_effect ht with
  | field => exact ⟨rfl, rfl⟩
  | passive _ hhost => rw [hhost] at hcode; cases hcode
  | _ => cases hcode

/-- Settles O26: the three operations are FIELD operations, and those keep to their registers with any index. -/
theorem fieldWithoutSlashCompletes : Obligations.FieldWithoutSlashCompletes := by
  rintro s i - hi
  exact exec_field_frame (by rw [Instr.IsField]; tauto) s

end Sys2Proof.Machine
end

section
/-! Reads by register number, and the host's operations one by one with exact next states (20_memory.md R69,
40_encode_sequence.md R135, R136, R138). -/

namespace Sys2Proof.Machine

/-! ## Reads by register number -/

theorem read_callIn {a : RegNum} (h : a.toNat ≤ 0x00B) (x : Byte) (s : State) :
    exec (decodeAccess (accessWord false a x)) s = .next (s.returnByte (s.readCallIn a.toNat)) := by
  have hindex : (a.extractLsb' 0 4).toNat = a.toNat := by rw [BitVec.extractLsb'_toNat]; omega
  rw [decodeAccess_read, decodeRead, if_pos h, ← hindex]
  rfl

theorem read_locIn {a : RegNum} (h : 0x010 ≤ a.toNat ∧ a.toNat ≤ 0x015) (x : Byte) (s : State) :
    exec (decodeAccess (accessWord false a x)) s = .next (s.returnByte (s.readLocIn (a.toNat - 0x010))) := by
  have hindex : (a.extractLsb' 0 3).toNat = a.toNat - 0x010 := by rw [BitVec.extractLsb'_toNat]; omega
  rw [decodeAccess_read, decodeRead, if_neg (by omega), if_pos h, ← hindex]
  rfl

theorem read_pwrIn {a : RegNum} (h : a.toNat = 0x018) (x : Byte) (s : State) :
    exec (decodeAccess (accessWord false a x)) s = .next (s.returnByte s.pwrIn) := by
  rw [decodeAccess_read, decodeRead, if_neg (by omega), if_neg (by omega), if_pos h]
  rfl

theorem read_ctrl {a : RegNum} (h : a.toNat = 0x019) (x : Byte) (s : State) :
    exec (decodeAccess (accessWord false a x)) s = .next (s.returnByte 0x00#8) := by
  rw [decodeAccess_read, decodeRead, if_neg (by omega), if_neg (by omega), if_neg (by omega), if_pos h]
  rfl

theorem read_status {a : RegNum} (h : a.toNat = 0x01A) (x : Byte) (s : State) :
    exec (decodeAccess (accessWord false a x)) s = .next (s.returnByte s.status) := by
  rw [decodeAccess_read, decodeRead, if_neg (by omega), if_neg (by omega), if_neg (by omega), if_neg (by omega),
    if_pos h]
  rfl

theorem exec_rdSym_of_done {s : State} (hdone : s.done = true) (i : BitVec 8) (x : Byte) :
    exec (.rdSym i x) s = .next (s.returnByte (s.readSym i.toNat)) := by
  simp only [exec, execRdSym, hdone, if_true]

/-- Before `DONE` a symbol reads as the next free value (log 10). -/
theorem exec_rdSym_of_not_done {s : State} (hdone : s.done = false) (i : BitVec 8) (x : Byte) :
    exec (.rdSym i x) s = .next (s.useFree.returnByte (Config.freeByte s.freeCount)) := by
  simp only [exec, execRdSym, hdone, Bool.false_eq_true, if_false]

theorem read_sym {a : RegNum} (h : 0x100 ≤ a.toNat ∧ a.toNat ≤ 0x1A1) (x : Byte) (s : State) :
    exec (decodeAccess (accessWord false a x)) s = exec (.rdSym (BitVec.ofNat 8 (a.toNat - 0x100)) x) s := by
  have hindex : a.extractLsb' 0 8 = BitVec.ofNat 8 (a.toNat - 0x100) := by
    apply BitVec.eq_of_toNat_eq
    rw [BitVec.extractLsb'_toNat, BitVec.toNat_ofNat]
    omega
  rw [decodeAccess_read, decodeRead, if_neg (by omega), if_neg (by omega), if_neg (by omega), if_neg (by omega),
    if_neg (by omega), if_pos h, hindex]

/-- A read is the map's, a symbol read if `DONE = 1` (40_encode_sequence.md R136, R138). -/
theorem read_eq_memRead {a : RegNum} {s : State} (h : s.done = true ∨ ¬ (0x100 ≤ a.toNat ∧ a.toNat ≤ 0x1A1))
    (x free : Byte) :
    exec (decodeAccess (accessWord false a x)) s = .next (s.returnByte (s.memRead free a)) := by
  by_cases hcall : a.toNat ≤ 0x00B
  · rw [read_callIn hcall, State.memRead, if_pos hcall]; rfl
  by_cases hloc : 0x010 ≤ a.toNat ∧ a.toNat ≤ 0x015
  · rw [read_locIn hloc, State.memRead, if_neg hcall, if_pos hloc]; rfl
  by_cases hpwr : a.toNat = 0x018
  · rw [read_pwrIn hpwr, State.memRead, if_neg hcall, if_neg hloc, if_pos hpwr]
  by_cases hctrl : a.toNat = 0x019
  · rw [read_ctrl hctrl, State.memRead, if_neg hcall, if_neg hloc, if_neg hpwr, if_pos hctrl]
  by_cases hstatus : a.toNat = 0x01A
  · rw [read_status hstatus, State.memRead, if_neg hcall, if_neg hloc, if_neg hpwr, if_neg hctrl, if_pos hstatus]
  by_cases hsym : 0x100 ≤ a.toNat ∧ a.toNat ≤ 0x1A1
  · have hdone := h.resolve_right (not_not_intro hsym)
    have hindex : (BitVec.ofNat 8 (a.toNat - 0x100)).toNat = a.toNat - 0x100 := by rw [BitVec.toNat_ofNat]; omega
    rw [read_sym hsym, exec_rdSym_of_done hdone, hindex, State.memRead, if_neg hcall, if_neg hloc, if_neg hpwr,
      if_neg hctrl, if_neg hstatus, if_pos hsym, if_pos hdone]
    rfl
  · rw [read_reserved hcall hloc hpwr hctrl hstatus hsym, State.memRead, if_neg hcall, if_neg hloc, if_neg hpwr,
      if_neg hctrl, if_neg hstatus, if_neg hsym]

/-- Settles O42: the map's byte, or a free one for a symbol before `DONE`. -/
theorem hostReadsFollowMap : Obligations.HostReadsFollowMap := by
  intro a x s
  by_cases h : s.done = true ∨ ¬ (0x100 ≤ a.toNat ∧ a.toNat ≤ 0x1A1)
  · obtain ⟨t, ht⟩ := exec_isNext (decodeAccess (accessWord false a x)) s
    have hread : ∀ free, t = s.returnByte (s.memRead free a) := fun free =>
      Host.Outcome.next.inj (ht.symm.trans (read_eq_memRead h x free))
    refine ⟨t, ht, fun _ free => ?_, ?_⟩
    · rw [hread free, State.returnByte_rdata]
    · rw [hread 0#8]; rfl
  · obtain ⟨hdone, hsym⟩ := not_or.mp h
    have hfree := exec_rdSym_of_not_done (Bool.eq_false_of_not_eq_true hdone) (BitVec.ofNat 8 (a.toNat - 0x100)) x
    exact ⟨_, (read_sym (not_not.mp hsym) x s).trans hfree, fun hmap => absurd hmap h, rfl⟩

/-! ## Input registers by index -/

theorem setIfInBounds_of_lt {α : Type} {n i : Nat} (v : Vector α n) (h : i < n) (x : α) :
    v.setIfInBounds i x = v.set i x := by
  ext k hk
  rw [Vector.getElem_setIfInBounds, Vector.getElem_set]

theorem State.writeCallIn_of_lt (s : State) {i : Nat} (h : i < 12) (v : Byte) :
    s.writeCallIn i v = { s with callIn := s.callIn.set i v } := by
  rw [State.writeCallIn, setIfInBounds_of_lt _ h]

/-- An index above the last register writes nothing (log 13). -/
theorem State.writeCallIn_of_ge (s : State) {i : Nat} (h : 12 ≤ i) (v : Byte) : s.writeCallIn i v = s := by
  simp [State.writeCallIn, Vector.setIfInBounds_eq_of_size_le h]

theorem State.writeLocIn_of_lt (s : State) {i : Nat} (h : i < 6) (v : Byte) :
    s.writeLocIn i v = { s with locIn := s.locIn.set i v } := by
  rw [State.writeLocIn, setIfInBounds_of_lt _ h]

/-- An index above the last register writes nothing (log 13). -/
theorem State.writeLocIn_of_ge (s : State) {i : Nat} (h : 6 ≤ i) (v : Byte) : s.writeLocIn i v = s := by
  simp [State.writeLocIn, Vector.setIfInBounds_eq_of_size_le h]

theorem State.readCallIn_fin (s : State) (i : Fin 12) : s.readCallIn i.val = s.callIn[i] := by
  simp [State.readCallIn]

theorem State.readLocIn_fin (s : State) (i : Fin 6) : s.readLocIn i.val = s.locIn[i] := by
  simp [State.readLocIn]

theorem State.readSym_fin (s : State) (i : Fin 162) : s.readSym i.val = BitVec.ofNat 8 (s.sym[i]).toNat := by
  simp [State.readSym]

/-! ## Operation by operation -/

theorem exec_wrCallIn (i : BitVec 4) (v : Byte) (s : State) :
    exec (.wrCallIn i v) s = .next (s.writeCallIn i.toNat v) := rfl

theorem exec_wrLocIn (i : BitVec 3) (v : Byte) (s : State) :
    exec (.wrLocIn i v) s = .next (s.writeLocIn i.toNat v) := rfl

theorem exec_rdCallIn (i : BitVec 4) (x : Byte) (s : State) :
    exec (.rdCallIn i x) s = .next (s.returnByte (s.readCallIn i.toNat)) := rfl

theorem exec_rdLocIn (i : BitVec 3) (x : Byte) (s : State) :
    exec (.rdLocIn i x) s = .next (s.returnByte (s.readLocIn i.toNat)) := rfl

/-- An index that fits the operand is the operand's number. -/
theorem toNat_ofNat_fin {n w : Nat} (hn : n ≤ 2 ^ w) (i : Fin n) : (BitVec.ofNat w i.val).toNat = i.val := by
  rw [BitVec.toNat_ofNat, Nat.mod_eq_of_lt (Nat.lt_of_lt_of_le i.isLt hn)]

/-- Settles O44: the two indexed writes inside and outside their range; the other writes are evaluation. -/
theorem hostWritesComplete : Obligations.HostWritesComplete := by
  refine fun s => ⟨fun i v => ?_, fun i v => ?_, fun _ => rfl, fun _ => rfl, fun _ _ => rfl, fun i v h => ?_,
    fun i v h => ?_⟩
  · rw [exec_wrCallIn, toNat_ofNat_fin (by decide), State.writeCallIn_of_lt]
  · rw [exec_wrLocIn, toNat_ofNat_fin (by decide), State.writeLocIn_of_lt]
  · rw [exec_wrCallIn, State.writeCallIn_of_ge s h]
  · rw [exec_wrLocIn, State.writeLocIn_of_ge s h]

/-- Settles O45: the two indexed reads name a register; the other reads are evaluation. -/
theorem hostReadsComplete : Obligations.HostReadsComplete := by
  refine fun s x => ⟨fun i => ?_, fun i => ?_, rfl, rfl, rfl, fun _ => rfl⟩
  · rw [exec_rdCallIn, toNat_ofNat_fin (by decide), State.readCallIn_fin]; rfl
  · rw [exec_rdLocIn, toNat_ofNat_fin (by decide), State.readLocIn_fin]; rfl

/-- Settles O46: `DONE` decides between the symbol and a free byte. -/
theorem symbolReads : Obligations.SymbolReads := by
  refine fun s i x => ⟨fun hdone => ?_, fun hdone => ⟨_, exec_rdSym_of_not_done hdone _ x, rfl⟩⟩
  rw [exec_rdSym_of_done hdone, toNat_ofNat_fin (by decide), State.readSym_fin]
  rfl

/-! ## RESET -/

/-- RESET as it leaves the block (70_reset_and_hazards.md R330). -/
def State.resetBlock (s : State) : State :=
  { State.reset with agenda := s.agenda, rdata := s.rdata, freeCount := s.freeCount }

theorem State.status_resetBlock (s : State) : s.resetBlock.status = 0x00#8 := by
  have hbusy : s.resetBlock.busy = false := s.resetBlock.busy_eq_false_iff.mpr rfl
  rw [State.status, hbusy]
  change 0#4 ++ 0#1 ++ BitVec.ofBool false ++ BitVec.ofBool false ++ BitVec.ofBool false = _
  rfl

/-- Settles O50: every register has its value in `State.reset`, and the three fields that are not the block's stay. -/
theorem resetClears : Obligations.ResetClears := by
  refine fun s => ⟨s.resetBlock, rfl, fun i => ?_, fun i => ?_, rfl, rfl, rfl, rfl, rfl, rfl, s.status_resetBlock, rfl,
    rfl, rfl⟩
  · exact Vector.getElem_replicate i.isLt
  · exact Vector.getElem_replicate i.isLt

end Sys2Proof.Machine
end

section
/-! Two encodes of the same inputs (40_encode_sequence.md R130, 70_reset_and_hazards.md R331). What two such runs share
at every step is the part of the state that steers the block and the result that the registers determine; the
registers themselves may differ. -/

namespace Sys2Proof.Machine

/-! ## The part that steers the block -/

/-- The inputs, the context, the select and flag registers and the turns to come, with every other register as reset
has it: two states agree on that part exactly when they have the same `steering`. -/
def State.steering (s : State) : State :=
  { State.reset with
    callIn := s.callIn, locIn := s.locIn, pwrIn := s.pwrIn, call := s.call, loc := s.loc, pwr := s.pwr,
    phase := s.phase, mtype := s.mtype, done := s.done, err := s.err, errcode := s.errcode, agenda := s.agenda }

theorem State.steering_fetch (s : State) : s.steering.fetch = s.fetch := rfl

theorem State.steering_endTurn (s : State) : s.endTurn.steering = s.steering.endTurn := rfl

theorem field_steering {i : Instr} (hi : i.IsField) {s t : State} (h : exec i s = .next t) :
    t.steering = (s.goto phPackb).steering := by
  obtain ⟨u, hu, hphase, hframe⟩ := exec_field_frame hi s
  obtain rfl := Host.Outcome.next.inj (h.symm.trans hu)
  rw [hframe, hphase]
  rfl

theorem hash_steering {s t : State} (h : exec .hash s = .next t) : t.steering = (s.goto phField).steering := by
  cases hash_effect h with
  | hash => rfl
  | passive _ hhost => cases hhost
  | field _ hi => cases hi.phaseCode

/-- What an operation makes of the part that steers the block depends on that part alone. -/
theorem exec_steering {i : Instr} {s t : State} (h : exec i s = .next t) :
    ∃ u, exec i s.steering = .next u ∧ u.steering = t.steering := by
  obtain ⟨u, hu⟩ := exec_isNext i s.steering
  refine ⟨u, hu, ?_⟩
  cases i with
  | classify m =>
    cases hopen : opensBracket s.call with
    | false =>
      have hplain : ¬ opensBracket s.call = true := by rw [hopen]; decide
      cases (exec_classify_plain m hplain).symm.trans h
      cases (exec_classify_plain (s := s.steering) m hplain).symm.trans hu
      rfl
    | true =>
      cases hclose : closeIndex s.call with
      | none =>
        cases (exec_classify_unclosed m hopen hclose).symm.trans h
        cases (exec_classify_unclosed (s := s.steering) m hopen hclose).symm.trans hu
        rfl
      | some g =>
        cases (exec_classify_bracketed m hopen hclose).symm.trans h
        cases (exec_classify_bracketed (s := s.steering) m hopen hclose).symm.trans hu
        rfl
  | hash => rw [hash_steering h, hash_steering hu]; rfl
  | fieldT1 | fieldT2S1 | fieldT2S2 | fieldT2P | fieldT3 =>
    rw [field_steering (by simp [Instr.IsField]) h, field_steering (by simp [Instr.IsField]) hu]; rfl
  | start x =>
    by_cases hidle : s.phase = phIdle
    · cases (exec_start_of_idle hidle x).symm.trans h
      cases (exec_start_of_idle (s := s.steering) hidle x).symm.trans hu
      rfl
    · cases (exec_start_of_busy hidle x).symm.trans h
      cases (exec_start_of_busy (s := s.steering) hidle x).symm.trans hu
      rfl
  | rdSym k x =>
    cases hdone : s.done with
    | false =>
      cases (exec_rdSym_of_not_done hdone k x).symm.trans h
      cases (exec_rdSym_of_not_done (s := s.steering) hdone k x).symm.trans hu
      rfl
    | true =>
      cases (exec_rdSym_of_done hdone k x).symm.trans h
      cases (exec_rdSym_of_done (s := s.steering) hdone k x).symm.trans hu
      rfl
  | norm | packb | conv | ilv | merge => cases h; cases hu; rfl
  | wrCallIn | wrLocIn | wrPwrIn | wrCtrlNop | wrIgnored => cases h; cases hu; rfl
  | rdCallIn | rdLocIn | rdPwrIn | rdCtrl | rdStatus | rdReserved => cases h; cases hu; rfl
  | reset => cases h; cases hu; rfl

theorem exec_steering_congr {i : Instr} {s s' t t' : State} (hsame : s.steering = s'.steering)
    (h : exec i s = .next t) (h' : exec i s' = .next t') : t.steering = t'.steering := by
  obtain ⟨u, hu, hut⟩ := exec_steering h
  obtain ⟨u', hu', hut'⟩ := exec_steering h'
  rw [hsame] at hu
  rw [← hut, ← hut', Host.Outcome.next.inj (hu.symm.trans hu')]

/-! ## The result along any step -/

/-- What an operation makes of the result: RESET drops it, an accepted START sets out for ENC of the inputs, and no
other operation changes it. -/
def State.resultAfter (s : State) : Instr → Option Symbols
  | .reset => none
  | .start _ => if s.phase = phIdle then enc s.callIn s.locIn s.pwrIn else s.result
  | _ => s.result

theorem State.resultAfter_of_ne {i : Instr} (hstart : ∀ x, i ≠ .start x) (hreset : i ≠ .reset) (s : State) :
    s.resultAfter i = s.result := by
  cases i with
  | start x => exact absurd rfl (hstart x)
  | reset => exact absurd rfl hreset
  | _ => rfl

/-- START, accepted or ignored. -/
theorem exec_start_result {x : BitVec 7} {s t : State} (h : exec (.start x) s = .next t) :
    t.result = s.resultAfter (.start x) := by
  by_cases hidle : s.phase = phIdle
  · cases (exec_start_of_idle hidle x).symm.trans h
    rw [State.result_norm rfl, State.resultAfter, if_pos hidle]
    rfl
  · cases (exec_start_of_busy hidle x).symm.trans h
    rw [State.resultAfter, if_neg hidle]

/-- The operation of the turn at hand does that to the result. -/
theorem exec_result {s t : State} {w : OpWord} {i : Instr} (hs : s.Inv) (hw : s.fetch = some w)
    (hi : decodeWord w = .ok i) (h : exec i s.endTurn = .next t) : t.result = s.endTurn.resultAfter i := by
  obtain ⟨rfl, -, -⟩ | ⟨v, rfl, -⟩ | ⟨rfl, -⟩ := fetch_cases hw
  · have hcode := State.phaseCode_of_opsel hi
    have hturn : s.endTurn.Inv := hs.of_sameEncode s.endTurn_sameEncode
    rw [State.resultAfter_of_ne (by rintro x rfl; cases hcode) (by rintro rfl; cases hcode)]
    exact exec_keeps_result hturn hi h
  · obtain rfl := Except.ok.inj hi
    by_cases hstart : ∃ x, decodeAccess v = .start x
    · obtain ⟨x, hx⟩ := hstart
      rw [hx] at h ⊢
      exact exec_start_result h
    · have hne := not_exists.mp hstart
      have hsame := exec_sameEncode (decodeAccess_phaseCode v) hne (decodeAccess_ne_reset v) h
      rw [State.resultAfter_of_ne hne (decodeAccess_ne_reset v)]
      exact (State.result_of_sameEncode hsame).1
  · obtain rfl := Except.ok.inj hi
    cases h
    exact State.result_idle rfl

/-! ## Two runs -/

/-- Two states of the block that steer it alike and determine the same result. -/
structure State.Alike (s s' : State) : Prop where
  inv : s.Inv
  inv' : s'.Inv
  steering : s.steering = s'.steering
  result : s.result = s'.result

section
variable {s s' : State} (h : s.Alike s')
include h

theorem State.Alike.endTurn : s.endTurn.Alike s'.endTurn where
  inv := h.inv.of_sameEncode s.endTurn_sameEncode
  inv' := h.inv'.of_sameEncode s'.endTurn_sameEncode
  steering := congrArg State.endTurn h.steering
  result := h.result

theorem State.Alike.agree {α : Type} (f : State → α) : f s.steering = f s'.steering := congrArg f h.steering

theorem State.Alike.fetch : s.fetch = s'.fetch := h.agree State.fetch

theorem State.Alike.resultAfter (i : Instr) : s.resultAfter i = s'.resultAfter i := by
  have hcallIn : s.callIn = s'.callIn := h.agree State.callIn
  have hlocIn : s.locIn = s'.locIn := h.agree State.locIn
  have hpwrIn : s.pwrIn = s'.pwrIn := h.agree State.pwrIn
  have hphase : s.phase = s'.phase := h.agree State.phase
  cases i with
  | start x => simp only [State.resultAfter, hcallIn, hlocIn, hpwrIn, hphase, h.result]
  | reset => rfl
  | _ => exact h.result

/-- Alike states take the same turn and stay alike. -/
theorem State.Alike.step : ∃ t t', step s = .next t ∧ step s' = .next t' ∧ t.Alike t' := by
  cases hw : s.fetch with
  | none =>
    have hw' := h.fetch.symm.trans hw
    exact ⟨_, _, by simp only [Machine.step, hw], by simp only [Machine.step, hw'], h.endTurn⟩
  | some w =>
    have hw' := h.fetch.symm.trans hw
    obtain ⟨i, hi⟩ := h.inv.fetch_decodes hw
    obtain ⟨t, ht⟩ := exec_isNext i s.endTurn
    obtain ⟨t', ht'⟩ := exec_isNext i s'.endTurn
    have hstep : Machine.step s = .next t := by simp only [Machine.step, hw, hi, ht]
    have hstep' : Machine.step s' = .next t' := by simp only [Machine.step, hw', hi, ht']
    refine ⟨t, t', hstep, hstep', ?_⟩
    constructor
    case inv => exact stepKeepsInvariant s t h.inv hstep
    case inv' => exact stepKeepsInvariant s' t' h.inv' hstep'
    case steering => exact exec_steering_congr h.endTurn.steering ht ht'
    case result => rw [exec_result h.inv hw hi ht, exec_result h.inv' hw' hi ht', h.endTurn.resultAfter]

/-- The host cannot tell alike states apart: while `DONE = 1` the symbols are the result. -/
theorem State.Alike.sameToHost : s.sameToHost s' := by
  refine ⟨h.agree State.callIn, h.agree State.locIn, h.agree State.pwrIn, h.agree State.status, fun hdone => ?_⟩
  have hdone' : s'.done = true := (h.agree State.done).symm.trans hdone
  have hresult := h.result
  rw [State.result_idle (h.inv.phase_eq_phIdle_of_done hdone), if_pos hdone,
    State.result_idle (h.inv'.phase_eq_phIdle_of_done hdone'), if_pos hdone'] at hresult
  exact Option.some.inj hresult

end

theorem State.Alike.run {s s' : State} (h : s.Alike s') (k : Nat) :
    ∃ t t', Sys2Proof.core.run k s = .next t ∧ Sys2Proof.core.run k s' = .next t' ∧ t.Alike t' := by
  induction k generalizing s s' with
  | zero => exact ⟨s, s', rfl, rfl, h⟩
  | succ k ih =>
    obtain ⟨u, u', hu, hu', hnext⟩ := h.step
    rw [run_succ hu, run_succ hu']
    exact ih hnext

/-- An accepted START leaves nothing of the registers it does not write in what steers the block and in the result. -/
theorem State.started_alike {s s' : State} (hcallIn : s.callIn = s'.callIn) (hlocIn : s.locIn = s'.locIn)
    (hpwrIn : s.pwrIn = s'.pwrIn) (hagenda : s.agenda = s'.agenda) : s.started.Alike s'.started where
  inv := .start s
  inv' := .start s'
  steering := by
    simp [State.steering, State.started, hcallIn, hlocIn, hpwrIn, hagenda]
  result := by rw [s.started_encoding.result, s'.started_encoding.result, hcallIn, hlocIn, hpwrIn]

/-- Settles O58: START makes the two states alike, every further turn keeps them so, and the host sees no more. -/
theorem encodeForgetsHistory : Obligations.EncodeForgetsHistory := by
  intro s s' x turns hidle hidle' hcallIn hlocIn hpwrIn hagenda hsame k
  have halike : s.endTurn.started.Alike s'.endTurn.started :=
    State.started_alike hcallIn hlocIn hpwrIn (congrArg List.tail hsame.symm)
  obtain ⟨t, t', ht, ht', h⟩ := halike.run k
  refine ⟨t, t', ?_, ?_, h.sameToHost⟩
  · rw [Nat.add_comm, run_succ (step_start hidle hagenda), ht]
  · rw [Nat.add_comm, run_succ (step_start hidle' (hsame.trans hagenda)), ht']

end Sys2Proof.Machine
end
